-- ==== Sys2Proof/Word.lean ====
section
/-! DEFINITION. The bit-vector widths of the block: bytes, 16-bit values and the 32-bit request word
(spec 00_scope.md R6, R7; 30_encoding.md R73). There are no signed quantities (R7). -/

namespace Sys2Proof

/-- An 8-bit field: CLA, INS, P1, P2, Lc, Le, SW1, SW2, a TLV length, a wire byte (R6). -/
abbrev Byte := BitVec 8

/-- A 16-bit value: a tag operand, a 2-byte tag, a combined status word (R6, R102). -/
abbrev Half := BitVec 16

/-- The 32-bit request word `REQ` (R73). -/
abbrev Word := BitVec 32

end Sys2Proof
end

