-- ==== Sys2Proof/Config.lean ====
section
/-! DEFINITION. The configuration parameters of one block (spec 00_scope.md R6; 10_state.md R38): plain
data, fixed for the block, written by no step. The default values are `Machine.defaultConfig`
(Machine/Defaults.lean). DESIGN CHOICE (log 1): the configuration travels in `State.cfg`, so every
statement over all states is a statement over all configurations. -/

namespace Sys2Proof

/-- The three cryptogram types (R77). -/
inductive CryptogramType where
  | aac
  | arqc
  | tc
deriving DecidableEq, Repr

/-- The class the tag catalogue gives a tag (R170). -/
inductive TagClass where
  | primitive
  | constructed
deriving DecidableEq, Repr

/-- `P_SIBLINGS`: what happens to the bytes after a constructed record (R178, R179). -/
inductive Siblings where
  | preserve
  | discard
deriving DecidableEq, Repr

/-- The four fixed header bytes of a builder, `P_HDR(op)` (R111). -/
structure Header where
  cla : Byte
  ins : Byte
  p1 : Byte
  p2 : Byte
deriving DecidableEq, Repr

/-- All parameters of R6. A builder whose header has operand bytes keeps only the bytes that R111 does
not mark "operand". SELECT has no entry: "The SELECT row is from the source and is not a parameter". -/
structure Config where
  hdrGetResponse : Header
  claGetData : Byte
  insGetData : Byte
  claPutSecure : Byte
  claPutPlain : Byte
  insPutData : Byte
  hdrGetProcessingOptions : Header
  claReadRecord : Byte
  insReadRecord : Byte
  hdrExternalAuthenticate : Header
  claGenerateAc : Byte
  insGenerateAc : Byte
  p2GenerateAc : Byte
  hdrResetPinTryCounter : Header
  hdrOfflineChangePin : Header
  hdrVerify : Header
  hdrApplicationBlock : Header
  hdrApplicationUnblock : Header
  rcAac : Byte
  rcArqc : Byte
  rcTc : Byte
  gpoBody : Byte × Byte
  tags1 : List (Byte × TagClass)
  tags2 : List (Half × TagClass)
  siblings : Siblings
  rxMax : Nat
deriving DecidableEq, Repr

end Sys2Proof
end

