-- ==== Sys2Proof/Syntax.lean ====
section
/-! DEFINITION. The requests of the block: one constructor per row of spec/opcode_table.json
(30_encoding.md R75). The data operand (`aid`, `data`, `cdol`, `mac`, `pin`, the DECODE_TLV input) is never
part of a request word (R73): it is read from `DIN`. -/

namespace Sys2Proof

/-- A legal request, with the operand fields of its format (R73, R74). -/
inductive Instr where
  /-- OP 0x01, format N (R112). -/
  | select
  /-- OP 0x02, format L (R113). -/
  | getResponse (len : Byte)
  /-- OP 0x03, format T (R114). -/
  | getData (tag : Half)
  /-- OP 0x04, format TS (R115). -/
  | putData (secure : Bool) (tag : Half)
  /-- OP 0x05, format N (R116). -/
  | getProcessingOptions
  /-- OP 0x06, format R (R117). -/
  | readRecord (record sfi : Byte)
  /-- OP 0x07, format N (R118). -/
  | externalAuthenticate
  /-- OP 0x08, format A (R119). -/
  | generateAc (type : CryptogramType)
  /-- OP 0x09, format N (R120). -/
  | resetPinTryCounter
  /-- OP 0x0A, format N (R121). -/
  | offlineChangePin
  /-- OP 0x0B, format N (R122). -/
  | verify
  /-- OP 0x0C, format N (R123). -/
  | applicationBlock
  /-- OP 0x0D, format N (R124). -/
  | applicationUnblock
  /-- OP 0x0E, format L (R125). -/
  | withLength (len : Byte)
  /-- OP 0x10, format N (R211). -/
  | exchange
  /-- OP 0x11, format S (R155). -/
  | decodeStatus (sw1 sw2 : Byte)
  /-- OP 0x12, format N (R184). -/
  | decodeTlv
deriving DecidableEq, Repr

end Sys2Proof
end

