-- ==== Sys2Proof/WellFormed.lean ====
section
/-! DEFINITION. What is well formed before anything runs: request words (30_encoding.md R73, R75, R76) and
configurations (R127, R171, R172, R213). Every term of `Instr` is a legal request, because reserved bits and
the reserved TYPE code have no constructor; legality is therefore a property of the 32-bit word, written
here with the masks of R73 and independently of the decoder of Decode.lean. -/

namespace Sys2Proof

/-- The operand formats of R73. -/
inductive Format where
  | n
  | l
  | t
  | ts
  | r
  | a
  | s
deriving DecidableEq, Repr

/-- The bits below `OP` that R73 marks `0` in each format. -/
def Format.reserved : Format → Word
  | .n => 0x00FFFFFF#32
  | .l => 0x00FFFF00#32
  | .t => 0x00FF0000#32
  | .ts => 0x00FE0000#32
  | .r => 0x00FF0000#32
  | .a => 0x00FCFFFF#32
  | .s => 0x00FF0000#32

/-- One row of the operation map. -/
def opRow (op : Byte) (f : Format) : Byte × Format := (op, f)

/-- The operation map of R75: operation code and format. -/
def opMap : List (Byte × Format) :=
  [opRow 0x01#8 .n, opRow 0x02#8 .l, opRow 0x03#8 .t, opRow 0x04#8 .ts, opRow 0x05#8 .n, opRow 0x06#8 .r, opRow 0x07#8 .n,
   opRow 0x08#8 .a, opRow 0x09#8 .n, opRow 0x0A#8 .n, opRow 0x0B#8 .n, opRow 0x0C#8 .n, opRow 0x0D#8 .n, opRow 0x0E#8 .l,
   opRow 0x10#8 .n, opRow 0x11#8 .s, opRow 0x12#8 .n]

/-- The format of the word's operation code, if R75 assigns it. -/
def wordFormat (w : Word) : Option Format := opMap.lookup (w.extractLsb 31 24)

/-- R76 (a): the operation code is unassigned. -/
def unassignedOp (w : Word) : Bool := (wordFormat w).isNone

/-- R76 (b): a reserved bit of the word's format is 1. -/
def reservedBitSet (w : Word) : Bool :=
  match wordFormat w with
  | some f => w &&& f.reserved != 0#32
  | none => false

/-- R76 (c): GENERATE_AC with `TYPE = 0b11`. -/
def reservedType (w : Word) : Bool := w.extractLsb 31 24 == 0x08#8 && w.extractLsb 17 16 == 0b11#2

/-- R76: the request word is illegal. -/
def illegalWord (w : Word) : Bool := unassignedOp w || reservedBitSet w || reservedType w

/-- R171: no 2-byte tag begins with a 1-byte tag. -/
def Config.catalogueOk (c : Config) : Bool := c.tags2.all fun e => (c.tags1.lookup (e.1.extractLsb 15 8)).isNone

/-- R172: "A model must include `0x6F` as constructed and `0x84` as primitive." -/
def Config.sourceTagsOk (c : Config) : Bool :=
  c.tags1.lookup 0x6F#8 == some .constructed && c.tags1.lookup 0x84#8 == some .primitive

/-- R127: the three reference-control values are pairwise distinct. -/
def Config.refControlOk (c : Config) : Bool := c.rcAac != c.rcArqc && c.rcAac != c.rcTc && c.rcArqc != c.rcTc

/-- R213: `P_RX_MAX >= 2`. -/
def Config.rxMaxOk (c : Config) : Bool := decide (2 ≤ c.rxMax)

/-- The conditions that boot requires of a configuration (R273). No step checks them: they are premises. -/
def Config.wf (c : Config) : Bool := c.catalogueOk && c.sourceTagsOk && c.refControlOk && c.rxMaxOk

end Sys2Proof
end

