-- ==== Sys2Proof/Decode.lean ====
section
/-! DEFINITION. The request decoder, total on every 32-bit word and rejecting by name (30_encoding.md R73 to
R78), and the encoder of the same table. -/

namespace Sys2Proof

/-- Why the decoder rejects a word: the three clauses of R76. The Block answers each of them with
ILLEGAL_REQUEST and no other effect (R242), so none of them stops the machine. -/
inductive BadWord where
  /-- R76 (a). -/
  | unassignedOp
  /-- R76 (b). -/
  | reservedBits
  /-- R76 (c). -/
  | reservedType
deriving DecidableEq, Repr

/-- `OP = REQ[31:24]` (R73). -/
def opOf (w : Word) : Byte := w.extractLsb 31 24

/-- Format N: no operand. -/
def formatN (w : Word) (i : Instr) : Except BadWord Instr :=
  if w.extractLsb 23 0 = 0#24 then .ok i else .error .reservedBits

/-- Format L: `LEN = REQ[7:0]` (R74). -/
def formatL (w : Word) (mk : Byte → Instr) : Except BadWord Instr :=
  if w.extractLsb 23 8 = 0#16 then .ok (mk (w.extractLsb 7 0)) else .error .reservedBits

/-- Format T: `TAG = REQ[15:0]` (R74). -/
def formatT (w : Word) (mk : Half → Instr) : Except BadWord Instr :=
  if w.extractLsb 23 16 = 0#8 then .ok (mk (w.extractLsb 15 0)) else .error .reservedBits

/-- Format TS: `SEC = REQ[16]`, `TAG = REQ[15:0]` (R74). -/
def formatTS (w : Word) (mk : Bool → Half → Instr) : Except BadWord Instr :=
  if w.extractLsb 23 17 = 0#7 then .ok (mk (w.getLsbD 16) (w.extractLsb 15 0)) else .error .reservedBits

/-- Formats R and S: two byte operands, `REQ[15:8]` and `REQ[7:0]` (R74). -/
def formatBytes (w : Word) (mk : Byte → Byte → Instr) : Except BadWord Instr :=
  if w.extractLsb 23 16 = 0#8 then .ok (mk (w.extractLsb 15 8) (w.extractLsb 7 0)) else .error .reservedBits

/-- The TYPE codes of R77; `0b11` is reserved. -/
def typeOfCode (code : BitVec 2) : Option CryptogramType :=
  if code = 0b00#2 then some .aac else if code = 0b01#2 then some .arqc else if code = 0b10#2 then some .tc else none

/-- Format A: `TYPE = REQ[17:16]` (R74, R77). -/
def formatA (w : Word) (mk : CryptogramType → Instr) : Except BadWord Instr :=
  if w.extractLsb 23 18 = 0#6 ∧ w.extractLsb 15 0 = 0#16 then
    match typeOfCode (w.extractLsb 17 16) with
    | some t => .ok (mk t)
    | none => .error .reservedType
  else .error .reservedBits

/-- The request decoder (R75, R78): rows are told apart by `OP` alone. -/
def decode (w : Word) : Except BadWord Instr :=
  match (opOf w).toNat with
  | 0x01 => formatN w .select
  | 0x02 => formatL w .getResponse
  | 0x03 => formatT w .getData
  | 0x04 => formatTS w .putData
  | 0x05 => formatN w .getProcessingOptions
  | 0x06 => formatBytes w .readRecord
  | 0x07 => formatN w .externalAuthenticate
  | 0x08 => formatA w .generateAc
  | 0x09 => formatN w .resetPinTryCounter
  | 0x0A => formatN w .offlineChangePin
  | 0x0B => formatN w .verify
  | 0x0C => formatN w .applicationBlock
  | 0x0D => formatN w .applicationUnblock
  | 0x0E => formatL w .withLength
  | 0x10 => formatN w .exchange
  | 0x11 => formatBytes w .decodeStatus
  | 0x12 => formatN w .decodeTlv
  | _ => .error .unassignedOp

/-- A request word from its four bytes, `REQ[31:24]` first. -/
def wordOfBytes (op b2 b1 b0 : Byte) : Word := op ++ b2 ++ b1 ++ b0

/-- The TYPE code of a cryptogram type (R77). -/
def codeOfType : CryptogramType → Byte
  | .aac => 0b00#8
  | .arqc => 0b01#8
  | .tc => 0b10#8

/-- The word of a request (R73 to R75), every reserved bit 0. -/
def encode : Instr → Word
  | .select => wordOfBytes 0x01 0 0 0
  | .getResponse len => wordOfBytes 0x02 0 0 len
  | .getData tag => wordOfBytes 0x03 0 (tag.extractLsb 15 8) (tag.extractLsb 7 0)
  | .putData secure tag => wordOfBytes 0x04 (if secure then 1 else 0) (tag.extractLsb 15 8) (tag.extractLsb 7 0)
  | .getProcessingOptions => wordOfBytes 0x05 0 0 0
  | .readRecord record sfi => wordOfBytes 0x06 0 record sfi
  | .externalAuthenticate => wordOfBytes 0x07 0 0 0
  | .generateAc type => wordOfBytes 0x08 (codeOfType type) 0 0
  | .resetPinTryCounter => wordOfBytes 0x09 0 0 0
  | .offlineChangePin => wordOfBytes 0x0A 0 0 0
  | .verify => wordOfBytes 0x0B 0 0 0
  | .applicationBlock => wordOfBytes 0x0C 0 0 0
  | .applicationUnblock => wordOfBytes 0x0D 0 0 0
  | .withLength len => wordOfBytes 0x0E 0 0 len
  | .exchange => wordOfBytes 0x10 0 0 0
  | .decodeStatus sw1 sw2 => wordOfBytes 0x11 0 sw1 sw2
  | .decodeTlv => wordOfBytes 0x12 0 0 0

/-- The request read from a table word: bit 0 of `w` is bit 0 of `REQ`; a request is one 32-bit word (R78). -/
def decodeTableWord (nbits w : Nat) : Option Instr :=
  if w % 2 ^ nbits < 2 ^ 32 then (decode (BitVec.ofNat 32 (w % 2 ^ nbits))).toOption else none

end Sys2Proof
end

