-- ==== Sys2Proof/Machine/Defaults.lean ====
section
/-! DEFINITION. The default parameter values of R6, R111, R115, R116, R127, R172 and R213. Only the tags 6F and
84 come from the source; every other value is a default "from general knowledge" (93_implementation_defined.md
I1 to I4, I12, I13). PRESUMED (log 2). -/

namespace Sys2Proof.Machine

/-- Tags of one class. -/
def tagsOf {α : Type} (k : TagClass) (l : List α) : List (α × TagClass) := l.map fun x => (x, k)

/-- The 1-byte tags classed primitive by default (R172). -/
def primitiveTags1 : List Byte :=
  [0x42, 0x4F, 0x50, 0x57, 0x5A, 0x80, 0x82, 0x84, 0x87, 0x88, 0x8C, 0x8D, 0x8E, 0x8F, 0x90, 0x92, 0x93, 0x94]

/-- The 1-byte tags classed constructed by default (R172). -/
def constructedTags1 : List Byte := [0x61, 0x6F, 0x70, 0x71, 0x72, 0x73, 0x77, 0xA5]

/-- The 2-byte tags classed primitive by default (R172), `5F` and `9F0` to `9F1`. -/
def primitiveTags2a : List Half :=
  [0x5F20, 0x5F24, 0x5F25, 0x5F28, 0x5F2D, 0x5F30, 0x5F34, 0x9F07, 0x9F08, 0x9F0D, 0x9F0E, 0x9F0F, 0x9F10, 0x9F11,
   0x9F12, 0x9F13, 0x9F17, 0x9F1F]

/-- The 2-byte tags classed primitive by default (R172), `9F2` to `9F4`. -/
def primitiveTags2b : List Half :=
  [0x9F26, 0x9F27, 0x9F32, 0x9F36, 0x9F38, 0x9F42, 0x9F44, 0x9F46, 0x9F47, 0x9F48, 0x9F49, 0x9F4A, 0x9F4B, 0x9F4D, 0x9F4F]

/-- The default 1-byte tag table (R172). -/
def defaultTags1 : List (Byte × TagClass) := tagsOf .primitive primitiveTags1 ++ tagsOf .constructed constructedTags1

/-- The default 2-byte tag table (R172). -/
def defaultTags2 : List (Half × TagClass) :=
  tagsOf .primitive (primitiveTags2a ++ primitiveTags2b) ++ tagsOf .constructed [0xBF0C]

/-- The block with every parameter at its default (R6). -/
def defaultConfig : Config where
  hdrGetResponse := ⟨0x00, 0xC0, 0x00, 0x00⟩
  claGetData := 0x80
  insGetData := 0xCA
  claPutSecure := 0x04
  claPutPlain := 0x00
  insPutData := 0xDA
  hdrGetProcessingOptions := ⟨0x80, 0xA8, 0x00, 0x00⟩
  claReadRecord := 0x00
  insReadRecord := 0xB2
  hdrExternalAuthenticate := ⟨0x00, 0x82, 0x00, 0x00⟩
  claGenerateAc := 0x80
  insGenerateAc := 0xAE
  p2GenerateAc := 0x00
  hdrResetPinTryCounter := ⟨0x84, 0x24, 0x00, 0x00⟩
  hdrOfflineChangePin := ⟨0x84, 0x24, 0x00, 0x02⟩
  hdrVerify := ⟨0x00, 0x20, 0x00, 0x80⟩
  hdrApplicationBlock := ⟨0x84, 0x1E, 0x00, 0x00⟩
  hdrApplicationUnblock := ⟨0x84, 0x18, 0x00, 0x00⟩
  rcAac := 0x00
  rcArqc := 0x80
  rcTc := 0x40
  gpoBody := (0x83, 0x00)
  tags1 := defaultTags1
  tags2 := defaultTags2
  siblings := .preserve
  rxMax := 258

end Sys2Proof.Machine
end

