-- ==== Sys2Proof/Machine/Values.lean ====
section
/-! DEFINITION. The values the registers hold (10_state.md R25 to R34), with the codes that the Requester
reads. Codes that the spec reserves (ERR 6 and 7, Status kinds 0xA to 0xE, diagnosis 3; U5) have no
constructor, so no register can hold one. -/

namespace Sys2Proof.Machine

/-- The builder that produced a Command, `name : Op` of R25: the builders of R75. -/
inductive Op where
  | select
  | getResponse
  | getData
  | putData
  | getProcessingOptions
  | readRecord
  | externalAuthenticate
  | generateAc
  | resetPinTryCounter
  | offlineChangePin
  | verify
  | applicationBlock
  | applicationUnblock
deriving DecidableEq, Repr

/-- A Command (R25). `name` is a label and is never transmitted. -/
structure Command where
  name : Op
  cla : Byte
  ins : Byte
  p1 : Byte
  p2 : Byte
  lc : Option Byte
  data : Option (List Byte)
  le : Option Byte
deriving DecidableEq, Repr

/-- The protocol state (R29). -/
inductive FsmState where
  | done
  | sent
  | awaitingMore
  | awaitingRetry
deriving DecidableEq, Repr

/-- The 2-bit code of `FSM_STATE` (R29). -/
def fsmCode : FsmState → BitVec 2
  | .done => 0
  | .sent => 1
  | .awaitingMore => 2
  | .awaitingRetry => 3

/-- A Status (R30). -/
inductive Status where
  | ok
  | responseAvailable (length : Byte)
  | wrongLengthLe (length : Byte)
  | selectedFileInvalidated
  | wrongLength
  | securityConditionNotSatisfied
  | conditionsOfUseNotSatisfied
  | fileNotFound
  | referencedDataNotFound
  | instructionCodeNotSupported
  | unknown
deriving DecidableEq, Repr

/-- The 4-bit `kind` code of a Status (R30). -/
def statusKind : Status → BitVec 4
  | .ok => 0x0
  | .responseAvailable _ => 0x1
  | .wrongLengthLe _ => 0x2
  | .selectedFileInvalidated => 0x3
  | .wrongLength => 0x4
  | .securityConditionNotSatisfied => 0x5
  | .conditionsOfUseNotSatisfied => 0x6
  | .fileNotFound => 0x7
  | .referencedDataNotFound => 0x8
  | .instructionCodeNotSupported => 0x9
  | .unknown => 0xF

/-- The 8-bit `len` field of a Status, 0 for variants without a length (R30). -/
def statusLen : Status → Byte
  | .responseAvailable n => n
  | .wrongLengthLe n => n
  | .ok => 0
  | .selectedFileInvalidated => 0
  | .wrongLength => 0
  | .securityConditionNotSatisfied => 0
  | .conditionsOfUseNotSatisfied => 0
  | .fileNotFound => 0
  | .referencedDataNotFound => 0
  | .instructionCodeNotSupported => 0
  | .unknown => 0

/-- A TagId (R31): the width is the constructor, so a 1-byte tag has no high code byte. -/
inductive TagId where
  | one (b : Byte)
  | two (c : Half)
deriving DecidableEq, Repr

/-- The `width` field of R31, in bytes. -/
def tagWidth : TagId → Nat
  | .one _ => 1
  | .two _ => 2

/-- The `code` field of R31. -/
def tagCode : TagId → Half
  | .one b => b.zeroExtend 16
  | .two c => c

/-- A TLV record (R32). -/
structure TlvRecord where
  tag : TagId
  length : Byte
  value : List Byte
deriving DecidableEq, Repr

/-- How a TLV decode fails (R173, R176). -/
inductive TlvError where
  | unknownTag
  | truncated
deriving DecidableEq, Repr

/-- The contents of `RESP_TLV_DIAG` and `DT_DIAG` (R33, R36). -/
inductive TlvDiag where
  | decoded
  | unknownTag
  | truncated
deriving DecidableEq, Repr

/-- The 2-bit code of a diagnosis (R33). -/
def diagCode : TlvDiag → BitVec 2
  | .decoded => 0
  | .unknownTag => 1
  | .truncated => 2

/-- The Response record of the envelope (R200). -/
structure Response where
  status : Status
  sw : Byte × Byte
  raw : List Byte
  tlv : List TlvRecord
  diag : TlvDiag
deriving DecidableEq, Repr

/-- The contents of `ERR` (R34, R241). -/
inductive ErrCode where
  | none
  | transport
  | shortReply
  | replyTooLong
  | illegalRequest
  | noCommand
deriving DecidableEq, Repr

/-- The 3-bit code of `ERR` (R241). -/
def errValue : ErrCode → BitVec 3
  | .none => 0
  | .transport => 1
  | .shortReply => 2
  | .replyTooLong => 3
  | .illegalRequest => 4
  | .noCommand => 5

/-- The Transport's answer to one transmission: any byte sequence, or an error (R215). -/
inductive Answer where
  | ok (reply : List Byte)
  | transportError
deriving DecidableEq, Repr

/-- What the Requester can read (R22), `req_ready` among it (R23). -/
inductive Reg where
  | reqReady
  | cmdValid
  | cmd
  | tx
  | fsmState
  | respValid
  | respStatus
  | respSw
  | respRaw
  | respTlv
  | respTlvDiag
  | err
  | dsValid
  | dsStatus
  | dtValid
  | dtTlv
  | dtDiag
deriving DecidableEq, Repr

/-- What a register read gives, in the spec's own encodings (R29, R30, R33, R34). -/
inductive RegValue where
  | bit (b : Bool)
  | command (c : Command)
  | bytes (l : List Byte)
  | fsm (code : BitVec 2)
  | status (kind : BitVec 4) (len : Byte)
  | statusWord (sw1 sw2 : Byte)
  | records (l : List TlvRecord)
  | diag (code : BitVec 2)
  | err (code : BitVec 3)
deriving DecidableEq, Repr

/-- One action of an agent outside the Block (R20, R270). -/
inductive Stimulus where
  /-- The Requester drives `DIN_LEN` and `DIN` (R24). -/
  | driveDin (len : Byte) (bytes : Vector Byte 255)
  /-- The Requester drives `REQ` and raises `req_valid` (R23). -/
  | present (w : Word)
  /-- The Requester reads a register (R20, R37). -/
  | read (r : Reg)
  /-- The Transport answers the pending transmission (R215). -/
  | deliver (a : Answer)
  /-- The Transport answers a transmission that a reset abandoned (R271). -/
  | lateAnswer (a : Answer)
  /-- The reset event (R270). -/
  | reset
deriving DecidableEq, Repr

end Sys2Proof.Machine
end

