-- ==== Sys2Proof/Machine/State.lean ====
section
/-! DEFINITION. The state of the machine as plain data, the reasons a step can stop, and the state after
reset (10_state.md R20 to R41). -/

namespace Sys2Proof.Machine

/-- Why the machine stops. -/
inductive Fault where
  /-- A register that holds a value only under its valid bit is read while that bit is 0. The spec states this
  stop: "A model must treat a read of one of these while its valid bit is 0 as a fault, not as zero" (R37; U1;
  D24). Raised by the Requester's `read` action, and by the `6Cxx` continuation if `CMD` holds no value, which
  no run reaches (`Inv.pendingCommand`). Safe. -/
  | invalidRead (r : Reg)
deriving DecidableEq, Repr

/-- What the model gives no meaning to. -/
inductive Refusal where
  /-- An instruction without a meaning yet. Raised by refused arms of `exec`; there is none. Safe. -/
  | notModelled (mnemonic : String)
  /-- The `pin_unblock` text line: "a model refuses it" (R81, U13). Raised by `expandText` only, never by a
  step. Safe. -/
  | pinUnblockHasNoMac
  /-- A `#<hex>` operand of more than 255 bytes (R79). Raised by `assemble` only, never by a step. Safe. -/
  | operandTooLong
deriving DecidableEq, Repr

/-- The whole state: the configuration, the request port, the registers of R22, and what stands outside the
Block (the agents' coming actions, and the commands already handed to the card). -/
structure State where
  /-- The parameters of R6. No step writes them (R38, R272). -/
  cfg : Config
  /-- `REQ` (R23). -/
  req : Word
  /-- `req_valid` (R23). -/
  reqValid : Bool
  /-- `DIN_LEN` (R24). -/
  dinLen : Byte
  /-- `DIN` (R24): 255 bytes, of which the first `DIN_LEN` are the data operand. -/
  din : Vector Byte 255
  /-- `CMD_VALID` (R27). -/
  cmdValid : Bool
  /-- `CMD` (R27). -/
  cmd : Command
  /-- `TX` (R28). -/
  tx : List Byte
  /-- `FSM_STATE` (R29). A transmission is pending exactly while it is not `done` (R41). -/
  fsm : FsmState
  /-- `RESP_VALID` (R33). -/
  respValid : Bool
  /-- `RESP_STATUS` (R33). -/
  respStatus : Status
  /-- `RESP_SW` (R33). -/
  respSw : Byte × Byte
  /-- `RESP_RAW` (R33). -/
  respRaw : List Byte
  /-- `RESP_TLV` (R33). -/
  respTlv : List TlvRecord
  /-- `RESP_TLV_DIAG` (R33). -/
  respTlvDiag : TlvDiag
  /-- `ERR` (R34). -/
  err : ErrCode
  /-- `DS_VALID` (R35). -/
  dsValid : Bool
  /-- `DS_STATUS` (R35). -/
  dsStatus : Status
  /-- `DT_VALID` (R36). -/
  dtValid : Bool
  /-- `DT_TLV` (R36). -/
  dtTlv : List TlvRecord
  /-- `DT_DIAG` (R36). -/
  dtDiag : TlvDiag
  /-- MODEL'S OWN (log 3): the coming actions of the Requester, the Transport and the host, in order. -/
  agenda : List Stimulus
  /-- MODEL'S OWN (log 4): every byte sequence handed to the Transport, newest first. A reset does not take it
  back (R271). -/
  transmitted : List (List Byte)
deriving DecidableEq, Repr

/-- What a step answers. -/
abbrev Result := Host.Outcome State Fault Refusal

/-- The value `CMD` is given at reset, where R39 says "unspecified". DESIGN CHOICE (log 5): readable only while
`CMD_VALID = 1`. -/
def blankCommand : Command := ⟨.select, 0, 0, 0, 0, none, none, none⟩

/-- The state after reset (R39, R270). Where R39 gives a value it stands here; the contents of registers whose
valid bit is 0 and the input port are DESIGN CHOICES (log 5, log 6). -/
def State.reset : State where
  cfg := defaultConfig
  req := 0
  reqValid := false
  dinLen := 0
  din := Vector.replicate 255 0
  cmdValid := false
  cmd := blankCommand
  tx := []
  fsm := .done
  respValid := false
  respStatus := .ok
  respSw := (0, 0)
  respRaw := []
  respTlv := []
  respTlvDiag := .decoded
  err := .none
  dsValid := false
  dsStatus := .ok
  dtValid := false
  dtTlv := []
  dtDiag := .decoded
  agenda := []
  transmitted := []

end Sys2Proof.Machine
end

