-- ==== Sys2Proof/Machine/Ops.lean ====
section
/-! DEFINITION. The shared operations: byte utilities (40_byte_utilities.md), serialisation (30_encoding.md
R71), errors (60_exceptions.md R240), `Transmit` (45_protocol.md R214), register reads (10_state.md R37) and
reset (70_reset_and_hazards.md R270). -/

namespace Sys2Proof.Machine

/-- R100. -/
def hi (v : Half) : Byte := v.extractLsb 15 8

/-- R101. -/
def lo (v : Half) : Byte := v.extractLsb 7 0

/-- R102: the first byte is the high one (R51). -/
def combine (a b : Byte) : Half := (a.zeroExtend 16 <<< 8) ||| b.zeroExtend 16

/-- An optional one-byte field of the wire format. -/
def optByte : Option Byte → List Byte
  | some b => [b]
  | none => []

/-- R71: the wire bytes of a Command. -/
def serialize (c : Command) : List Byte := [c.cla, c.ins, c.p1, c.p2] ++ optByte c.lc ++ c.data.getD [] ++ optByte c.le

/-- R240, R250: an error is recorded in `ERR`; nothing is saved, nothing is transferred, nothing else changes.
This is all that taking an exception is on this hardware, and there is no return from one (R251). -/
def raise (e : ErrCode) (s : State) : State := { s with err := e }

/-- R110: a builder writes `CMD`, sets `CMD_VALID` and clears `ERR`. -/
def build (c : Command) (s : State) : State := { s with cmd := c, cmdValid := true, err := .none }

/-- R214: `TX <- bytes`, and the bytes go to the Transport; the protocol waits in `next`. -/
def transmit (bytes : List Byte) (next : FsmState) (s : State) : State :=
  { s with tx := bytes, transmitted := bytes :: s.transmitted, fsm := next }

/-- R37: a register that holds a value only under its valid bit. -/
def guarded (valid : Bool) (r : Reg) (v : RegValue) : Except Fault RegValue :=
  if valid then .ok v else .error (.invalidRead r)

/-- What the Requester gets from a register (R22, R37). -/
def readReg (s : State) : Reg → Except Fault RegValue
  | .reqReady => .ok (.bit (s.fsm == .done))
  | .cmdValid => .ok (.bit s.cmdValid)
  | .cmd => guarded s.cmdValid .cmd (.command s.cmd)
  | .tx => .ok (.bytes s.tx)
  | .fsmState => .ok (.fsm (fsmCode s.fsm))
  | .respValid => .ok (.bit s.respValid)
  | .respStatus => guarded s.respValid .respStatus (.status (statusKind s.respStatus) (statusLen s.respStatus))
  | .respSw => guarded s.respValid .respSw (.statusWord s.respSw.1 s.respSw.2)
  | .respRaw => guarded s.respValid .respRaw (.bytes s.respRaw)
  | .respTlv => guarded s.respValid .respTlv (.records s.respTlv)
  | .respTlvDiag => guarded s.respValid .respTlvDiag (.diag (diagCode s.respTlvDiag))
  | .err => .ok (.err (errValue s.err))
  | .dsValid => .ok (.bit s.dsValid)
  | .dsStatus => guarded s.dsValid .dsStatus (.status (statusKind s.dsStatus) (statusLen s.dsStatus))
  | .dtValid => .ok (.bit s.dtValid)
  | .dtTlv => guarded s.dtValid .dtTlv (.records s.dtTlv)
  | .dtDiag => guarded s.dtValid .dtDiag (.diag (diagCode s.dtDiag))

/-- The Block's own read of `CMD` (R37). -/
def readCmd (s : State) : Except Fault Command := if s.cmdValid then .ok s.cmd else .error (.invalidRead .cmd)

/-- R270, R271: every register takes its value of R39, in any `FSM_STATE`. The parameters (R272), the input port
(R39: "not block state"), the agents' coming actions and the commands the card already has (R271) stay. -/
def applyReset (s : State) : State :=
  { State.reset with
    cfg := s.cfg, req := s.req, reqValid := s.reqValid, dinLen := s.dinLen, din := s.din, agenda := s.agenda,
    transmitted := s.transmitted }

/-- The port after a request is accepted: one strobe presents one request (R23; log 7). -/
def lowerStrobe (s : State) : State := { s with reqValid := false }

/-- A request word on the port of an idle Block. -/
def placeRequest (s : State) (w : Word) : State := { s with req := w, reqValid := true, fsm := .done }

end Sys2Proof.Machine
end

