-- ==== Sys2Proof/Machine/Operands.lean ====
section
/-! DEFINITION. Operands that a request word does not carry: the data operand in `DIN` (10_state.md R24) and
the configuration tables (00_scope.md R6; 41_command_encoder.md R111, R127; 43_tlv_codec.md R170). -/

namespace Sys2Proof.Machine

/-- `DIN[0..DIN_LEN)` (R24). Bytes at index `DIN_LEN` or above are not read. -/
def dinOperand (s : State) : List Byte := s.din.toList.take s.dinLen.toNat

/-- `DIN` with a byte sequence at its start. The bytes after it are zero; they are never read (R24; log 6). -/
def dinOf (bytes : List Byte) : Vector Byte 255 := Vector.ofFn fun i => bytes.getD i 0

/-- `P_RC(t)` (R127). -/
def refControl (c : Config) : CryptogramType → Byte
  | .aac => c.rcAac
  | .arqc => c.rcArqc
  | .tc => c.rcTc

/-- The CLA byte of PUT DATA (R115). -/
def putDataClass (c : Config) (secure : Bool) : Byte := if secure then c.claPutSecure else c.claPutPlain

/-- `P_GPO_BODY` (R116). -/
def gpoBytes (c : Config) : List Byte := [c.gpoBody.1, c.gpoBody.2]

/-- `class(tag)`: the catalogue's answer for the TagId's width and code (R170, R185). -/
def tagClass (c : Config) : TagId → Option TagClass
  | .one b => c.tags1.lookup b
  | .two v => c.tags2.lookup v

end Sys2Proof.Machine
end

