-- ==== Sys2Proof/Machine/Flags.lean ====
section
/-! DEFINITION. The block has no arithmetic flags (10_state.md R40). Its status bits are the four valid bits
and the derived level `req_ready`; the writes of the valid bits that are no part of `build` stand here. -/

namespace Sys2Proof.Machine

/-- `req_ready = (FSM_STATE = Done)` (R23). -/
def reqReady (s : State) : Bool := s.fsm == .done

/-- R155: DECODE_STATUS sets `DS_VALID`. -/
def recordStatus (st : Status) (s : State) : State := { s with dsStatus := st, dsValid := true, err := .none }

/-- R184: DECODE_TLV sets `DT_VALID`. -/
def recordTlv (rs : List TlvRecord) (d : TlvDiag) (s : State) : State :=
  { s with dtTlv := rs, dtDiag := d, dtValid := true, err := .none }

/-- R211: an accepted EXCHANGE clears `RESP_VALID` and `ERR`. -/
def openExchange (s : State) : State := { s with respValid := false, err := .none }

/-- R221 with the `FSM_STATE <- Done` of R216 and R217: the Response registers take the envelope and `RESP_VALID`
is set. `ERR` is not written. -/
def surface (r : Response) (s : State) : State :=
  { s with
    respStatus := r.status, respSw := r.sw, respRaw := r.raw, respTlv := r.tlv, respTlvDiag := r.diag, respValid := true,
    fsm := .done }

/-- R220: the exchange ends in an error. `RESP_VALID` is not written. -/
def failExchange (e : ErrCode) (s : State) : State := { raise e s with fsm := .done }

end Sys2Proof.Machine
end

