-- ==== Sys2Proof/Machine/Builders.lean ====
section
/-! DEFINITION. The Command Encoder (41_command_encoder.md): the builder functions and the builder
requests. A builder never transmits. -/

namespace Sys2Proof.Machine

/-- A Command with the four header bytes, Lc = the operand's length, and the operand (R110, R126 (d)). -/
def dataCommand (name : Op) (h : Header) (d : List Byte) : Command :=
  ⟨name, h.cla, h.ins, h.p1, h.p2, some (BitVec.ofNat 8 d.length), some d, none⟩

/-- `select(aid)` (R112). Its header is the source's and no parameter. -/
def cmdSelect (aid : List Byte) : Command := dataCommand .select ⟨0x00, 0xA4, 0x04, 0x00⟩ aid

/-- `get_response(length)` (R113). -/
def cmdGetResponse (c : Config) (len : Byte) : Command :=
  ⟨.getResponse, c.hdrGetResponse.cla, c.hdrGetResponse.ins, c.hdrGetResponse.p1, c.hdrGetResponse.p2, none, none, some len⟩

/-- `get_data(tag)` (R114). -/
def cmdGetData (c : Config) (tag : Half) : Command := ⟨.getData, c.claGetData, c.insGetData, hi tag, lo tag, none, none, none⟩

/-- `put_data(secure, tag, data)` (R115). -/
def cmdPutData (c : Config) (secure : Bool) (tag : Half) (d : List Byte) : Command :=
  dataCommand .putData ⟨putDataClass c secure, c.insPutData, hi tag, lo tag⟩ d

/-- `get_processing_options()` (R116): Lc = 2 and the fixed body. -/
def cmdGetProcessingOptions (c : Config) : Command :=
  dataCommand .getProcessingOptions c.hdrGetProcessingOptions (gpoBytes c)

/-- `read_record(record, sfi)` (R117): P2 is the SFI operand verbatim. -/
def cmdReadRecord (c : Config) (record sfi : Byte) : Command :=
  ⟨.readRecord, c.claReadRecord, c.insReadRecord, record, sfi, none, none, none⟩

/-- `external_authenticate(data)` (R118). -/
def cmdExternalAuthenticate (c : Config) (d : List Byte) : Command :=
  dataCommand .externalAuthenticate c.hdrExternalAuthenticate d

/-- `generate_ac(type, cdol)` (R119): P1 is the type's reference-control byte. -/
def cmdGenerateAc (c : Config) (t : CryptogramType) (cdol : List Byte) : Command :=
  dataCommand .generateAc ⟨c.claGenerateAc, c.insGenerateAc, refControl c t, c.p2GenerateAc⟩ cdol

/-- `reset_pin_try_counter(mac)` (R120). -/
def cmdResetPinTryCounter (c : Config) (mac : List Byte) : Command :=
  dataCommand .resetPinTryCounter c.hdrResetPinTryCounter mac

/-- `offline_change_pin(pin)` (R121). -/
def cmdOfflineChangePin (c : Config) (pin : List Byte) : Command := dataCommand .offlineChangePin c.hdrOfflineChangePin pin

/-- `verify(pin)` (R122). -/
def cmdVerify (c : Config) (pin : List Byte) : Command := dataCommand .verify c.hdrVerify pin

/-- `application_block(mac)` (R123). -/
def cmdApplicationBlock (c : Config) (mac : List Byte) : Command := dataCommand .applicationBlock c.hdrApplicationBlock mac

/-- `application_unblock(mac)` (R124). -/
def cmdApplicationUnblock (c : Config) (mac : List Byte) : Command :=
  dataCommand .applicationUnblock c.hdrApplicationUnblock mac

/-- `with_length(command, length)` (R125): `name` is kept (D11), data and Le are dropped. -/
def withLength (c : Command) (n : Byte) : Command := ⟨c.name, c.cla, c.ins, c.p1, c.p2, some n, none, none⟩

/-- SELECT (R112). -/
def execSelect (s : State) : Result := .next (build (cmdSelect (dinOperand s)) s)

/-- GET_RESPONSE (R113). -/
def execGetResponse (len : Byte) (s : State) : Result := .next (build (cmdGetResponse s.cfg len) s)

/-- GET_DATA (R114). -/
def execGetData (tag : Half) (s : State) : Result := .next (build (cmdGetData s.cfg tag) s)

/-- PUT_DATA (R115). -/
def execPutData (secure : Bool) (tag : Half) (s : State) : Result :=
  .next (build (cmdPutData s.cfg secure tag (dinOperand s)) s)

/-- GET_PROCESSING_OPTIONS (R116). -/
def execGetProcessingOptions (s : State) : Result := .next (build (cmdGetProcessingOptions s.cfg) s)

/-- READ_RECORD (R117). -/
def execReadRecord (record sfi : Byte) (s : State) : Result := .next (build (cmdReadRecord s.cfg record sfi) s)

/-- EXTERNAL_AUTHENTICATE (R118). -/
def execExternalAuthenticate (s : State) : Result := .next (build (cmdExternalAuthenticate s.cfg (dinOperand s)) s)

/-- GENERATE_AC (R119). `TYPE = 0b11` never reaches it: the decoder rejects the word (R76 (c)). -/
def execGenerateAc (t : CryptogramType) (s : State) : Result := .next (build (cmdGenerateAc s.cfg t (dinOperand s)) s)

/-- RESET_PIN_TRY_COUNTER (R120). -/
def execResetPinTryCounter (s : State) : Result := .next (build (cmdResetPinTryCounter s.cfg (dinOperand s)) s)

/-- OFFLINE_CHANGE_PIN (R121). -/
def execOfflineChangePin (s : State) : Result := .next (build (cmdOfflineChangePin s.cfg (dinOperand s)) s)

/-- VERIFY (R122). -/
def execVerify (s : State) : Result := .next (build (cmdVerify s.cfg (dinOperand s)) s)

/-- APPLICATION_BLOCK (R123). -/
def execApplicationBlock (s : State) : Result := .next (build (cmdApplicationBlock s.cfg (dinOperand s)) s)

/-- APPLICATION_UNBLOCK (R124). -/
def execApplicationUnblock (s : State) : Result := .next (build (cmdApplicationUnblock s.cfg (dinOperand s)) s)

/-- WITH_LENGTH (R125): NO_COMMAND before any Command exists (R243). -/
def execWithLength (len : Byte) (s : State) : Result :=
  if s.cmdValid then .next (build (withLength s.cmd len) s) else .next (raise .noCommand s)

end Sys2Proof.Machine
end

