-- ==== Sys2Proof/Machine/StatusWord.lean ====
section
/-! DEFINITION. The status-word mapper (42_status_decoder.md) and the DECODE_STATUS request. -/

namespace Sys2Proof.Machine

/-- The fixed table of R150 and R153; no match is `Unknown` (R154). -/
def statusTable (code : Half) : Status :=
  match code.toNat with
  | 0x6283 => .selectedFileInvalidated
  | 0x6700 => .wrongLength
  | 0x6982 => .securityConditionNotSatisfied
  | 0x6985 => .conditionsOfUseNotSatisfied
  | 0x6A82 => .fileNotFound
  | 0x6A88 => .referencedDataNotFound
  | 0x6D00 => .instructionCodeNotSupported
  | 0x9000 => .ok
  | _ => .unknown

/-- `decode_status(sw1, sw2)` (R150): `61`, then `6C`, then the table (R249). -/
def decodeStatus (sw1 sw2 : Byte) : Status :=
  if sw1 = 0x61#8 then .responseAvailable sw2
  else if sw1 = 0x6C#8 then .wrongLengthLe sw2
  else statusTable (combine sw1 sw2)

/-- DECODE_STATUS (R155). -/
def execDecodeStatus (sw1 sw2 : Byte) (s : State) : Result := .next (recordStatus (decodeStatus sw1 sw2) s)

end Sys2Proof.Machine
end

