-- ==== Sys2Proof/Machine/Tlv.lean ====
section
/-! DEFINITION. The TLV codec (43_tlv_codec.md), the Response Envelope (44_response_envelope.md) and the
DECODE_TLV request. -/

namespace Sys2Proof.Machine

/-- R173, R185: the 1-byte table first, then the pair in the 2-byte table. -/
def resolveTag (c : Config) (b0 b1 : Byte) : Option (TagId × TagClass) :=
  match tagClass c (.one b0) with
  | some k => some (.one b0, k)
  | none =>
    match tagClass c (.two (combine b0 b1)) with
    | some k => some (.two (combine b0 b1), k)
    | none => none

/-- One record split off the start of a frame: its class, the record, and the bytes after it (R173 to R175). -/
structure TlvPiece where
  cls : TagClass
  record : TlvRecord
  rest : List Byte
deriving DecidableEq, Repr

/-- R174 to R176 (b), (c): the length byte and the value, from the bytes after the tag. -/
def readBody (tag : TagId) (cls : TagClass) : List Byte → Except TlvError TlvPiece
  | [] => .error .truncated
  | len :: body =>
    if body.length < len.toNat then .error .truncated
    else .ok ⟨cls, ⟨tag, len, body.take len.toNat⟩, body.drop len.toNat⟩

/-- One record header with its checks in the order of R176: (a), the tag lookup, (b), (c). -/
def readPiece (c : Config) : List Byte → Except TlvError TlvPiece
  | [] => .error .truncated
  | [_] => .error .truncated
  | b0 :: b1 :: tl =>
    match resolveTag c b0 b1 with
    | none => .error .unknownTag
    | some (tag, cls) => readBody tag cls ((b0 :: b1 :: tl).drop (tagWidth tag))

/-- The frames after a constructed record: its value is a new level, and the enclosing levels are kept (R178) or
dropped (R179). -/
def descend (m : Siblings) (p : TlvPiece) (stack : List (List Byte)) : List (List Byte) :=
  match m with
  | .preserve => p.record.value :: p.rest :: stack
  | .discard => [p.record.value]

/-- The loop of R180 with its stack of frames and its output. The first argument bounds the iterations:
`tlvDecode` gives it the measure of R182 (b), so the second line is never reached (log 8). -/
def tlvLoop (c : Config) : Nat → List (List Byte) → List TlvRecord → Except TlvError (List TlvRecord)
  | _, [], out => .ok out
  | 0, _ :: _, _ => .error .truncated
  | n + 1, [] :: stack, out => tlvLoop c n stack out
  | n + 1, (b :: f) :: stack, out =>
    match readPiece c (b :: f) with
    | .error e => .error e
    | .ok p =>
      match p.cls with
      | .primitive => tlvLoop c n (p.rest :: stack) (out ++ [p.record])
      | .constructed => tlvLoop c n (descend c.siblings p stack) out

/-- `tlv_decode(buf)` (R180). -/
def tlvDecode (c : Config) (buf : List Byte) : Except TlvError (List TlvRecord) := tlvLoop c (3 * buf.length + 1) [buf] []

/-- The record list and the diagnosis of a decode: a failure leaves no records (R181, R184, R202). -/
def tlvOutcome : Except TlvError (List TlvRecord) → List TlvRecord × TlvDiag
  | .ok rs => (rs, .decoded)
  | .error .unknownTag => ([], .unknownTag)
  | .error .truncated => ([], .truncated)

/-- `envelope(st, sw, payload)` (R200). -/
def envelope (c : Config) (st : Status) (sw : Byte × Byte) (payload : List Byte) : Response :=
  ⟨st, sw, payload, (tlvOutcome (tlvDecode c payload)).1, (tlvOutcome (tlvDecode c payload)).2⟩

/-- DECODE_TLV (R184): a decode failure is no block error (R246). -/
def execDecodeTlv (s : State) : Result :=
  .next (recordTlv (tlvOutcome (tlvDecode s.cfg (dinOperand s))).1 (tlvOutcome (tlvDecode s.cfg (dinOperand s))).2 s)

end Sys2Proof.Machine
end

