-- ==== Sys2Proof/Machine/Protocol.lean ====
section
/-! DEFINITION. The Session/Command Protocol (45_protocol.md): the EXCHANGE request, the step that follows a
delivery, and the other agents' actions (10_state.md R20, R23; 70_reset_and_hazards.md R270, R271). -/

namespace Sys2Proof.Machine

/-- EXCHANGE (R211): NO_COMMAND before any Command exists (R243). -/
def execExchange (s : State) : Result :=
  if s.cmdValid then .next (transmit (serialize s.cmd) .sent (openExchange s)) else .next (raise .noCommand s)

/-- R212: the last two bytes are the status word. `none` if there are fewer than two. -/
def splitReply (r : List Byte) : Option (Byte × Byte × List Byte) :=
  match r.drop (r.length - 2) with
  | [sw1, sw2] => some (sw1, sw2, r.take (r.length - 2))
  | _ => none

/-- R213, R220, R249: transport error, then too short, then too long; an accepted answer is split. -/
def acceptAnswer (c : Config) : Answer → Except ErrCode (Byte × Byte × List Byte)
  | .transportError => .error .transport
  | .ok r =>
    match splitReply r with
    | none => .error .shortReply
    | some x => if c.rxMax < r.length then .error .replyTooLong else .ok x

/-- The `6Cxx` continuation (R218): the length-corrected copy of `CMD`. -/
def retryWithLength (n : Byte) (s : State) : Result :=
  match readCmd s with
  | .ok c => .next (transmit (serialize (withLength c n)) .awaitingRetry s)
  | .error f => .fault f

/-- An accepted reply in `Sent` (R216). -/
def replyInSent (sw1 sw2 : Byte) (payload : List Byte) (s : State) : Result :=
  match decodeStatus sw1 sw2 with
  | .responseAvailable n => .next (transmit (serialize (cmdGetResponse s.cfg n)) .awaitingMore s)
  | .wrongLengthLe n => retryWithLength n s
  | st => .next (surface (envelope s.cfg st (sw1, sw2) payload) s)

/-- An accepted reply in `AwaitingMore` or `AwaitingRetry`: whatever its status, it is surfaced (R217 to R219). -/
def replyInContinuation (sw1 sw2 : Byte) (payload : List Byte) (s : State) : Result :=
  .next (surface (envelope s.cfg (decodeStatus sw1 sw2) (sw1, sw2) payload) s)

/-- The protocol step of an accepted reply (R224). In `Done` no transmission is pending and there is no
delivery to take (R252). -/
def acceptedReply (sw1 sw2 : Byte) (payload : List Byte) (s : State) : Result :=
  match s.fsm with
  | .done => .next s
  | .sent => replyInSent sw1 sw2 payload s
  | .awaitingMore => replyInContinuation sw1 sw2 payload s
  | .awaitingRetry => replyInContinuation sw1 sw2 payload s

/-- The Transport's delivery with the protocol step it triggers (R215 to R221). -/
def deliver (a : Answer) (s : State) : Result :=
  if reqReady s then .next s
  else
    match acceptAnswer s.cfg a with
    | .error e => .next (failExchange e s)
    | .ok (sw1, sw2, payload) => acceptedReply sw1 sw2 payload s

/-- The Requester's read of a register: it changes nothing, and stops the run where R37 forbids it. -/
def readStep (r : Reg) (s : State) : Result :=
  match readReg s r with
  | .ok _ => .next s
  | .error f => .fault f

/-- One action of an agent outside the Block, with the Block's reaction to it. -/
def respond (a : Stimulus) (s : State) : Result :=
  match a with
  | .driveDin len bytes => .next { s with dinLen := len, din := bytes }
  | .present w => .next { s with req := w, reqValid := true }
  | .read r => readStep r s
  | .deliver ans => deliver ans s
  | .lateAnswer _ => .next s
  | .reset => .next (applyReset s)

/-- While a transmission is pending the Requester waits with its next request and its next operand (R23, R222):
the first action in order that does not wait is taken. `waiting` says that the Requester already waits. -/
def takeWhileBusy : Bool → List Stimulus → Option (Stimulus × List Stimulus)
  | _, [] => none
  | waiting, a :: rest =>
    match a, waiting with
    | .present _, _ => (takeWhileBusy true rest).map fun x => (x.1, a :: x.2)
    | .driveDin _ _, _ => (takeWhileBusy true rest).map fun x => (x.1, a :: x.2)
    | .read _, true => (takeWhileBusy true rest).map fun x => (x.1, a :: x.2)
    | .read _, false => some (a, rest)
    | .deliver _, _ => some (a, rest)
    | .lateAnswer _, _ => some (a, rest)
    | .reset, _ => some (a, rest)

/-- The next action of the other agents, and those that are left (R20). -/
def takeStimulus (ready : Bool) (agenda : List Stimulus) : Option (Stimulus × List Stimulus) :=
  if ready then
    match agenda with
    | [] => none
    | a :: rest => some (a, rest)
  else takeWhileBusy false agenda

/-- A step in which no request is accepted: the next action of another agent, or, if there is none, nothing
moves (R222: the block waits forever; U3). -/
def outsideStep (s : State) : Result :=
  match takeStimulus (reqReady s) s.agenda with
  | none => .next s
  | some (a, rest) => respond a { s with agenda := rest }

end Sys2Proof.Machine
end

