-- ==== Sys2Proof/Machine/Dispatch.lean ====
section
/-! DEFINITION. The meaning of each request, one arm per constructor of `Instr`. -/

namespace Sys2Proof.Machine

def exec (i : Instr) (s : State) : Host.Outcome State Fault Refusal :=
  match i with
  | .select => Sys2Proof.Machine.execSelect s
  | .getResponse len => Sys2Proof.Machine.execGetResponse len s
  | .getData tag => Sys2Proof.Machine.execGetData tag s
  | .putData secure tag => Sys2Proof.Machine.execPutData secure tag s
  | .getProcessingOptions => Sys2Proof.Machine.execGetProcessingOptions s
  | .readRecord record sfi => Sys2Proof.Machine.execReadRecord record sfi s
  | .externalAuthenticate => Sys2Proof.Machine.execExternalAuthenticate s
  | .generateAc type => Sys2Proof.Machine.execGenerateAc type s
  | .resetPinTryCounter => Sys2Proof.Machine.execResetPinTryCounter s
  | .offlineChangePin => Sys2Proof.Machine.execOfflineChangePin s
  | .verify => Sys2Proof.Machine.execVerify s
  | .applicationBlock => Sys2Proof.Machine.execApplicationBlock s
  | .applicationUnblock => Sys2Proof.Machine.execApplicationUnblock s
  | .withLength len => Sys2Proof.Machine.execWithLength len s
  | .exchange => Sys2Proof.Machine.execExchange s
  | .decodeStatus sw1 sw2 => Sys2Proof.Machine.execDecodeStatus sw1 sw2 s
  | .decodeTlv => Sys2Proof.Machine.execDecodeTlv s

end Sys2Proof.Machine
end

