-- ==== Sys2Proof/Machine/Accept.lean ====
section
/-! DEFINITION. Accepting a request from the port (10_state.md R23; 60_exceptions.md R242). -/

namespace Sys2Proof.Machine

/-- A request is accepted exactly when `req_valid` and `req_ready` are both true (R23). -/
def accepts (s : State) : Bool := s.reqValid && reqReady s

/-- One accepted request, one atomic Block step: a legal word runs its request, an illegal one records
ILLEGAL_REQUEST and changes nothing else (R76, R242, R249). -/
def acceptRequest (s : State) : Result :=
  match decode s.req with
  | .ok i => exec i (lowerStrobe s)
  | .error _ => .next (raise .illegalRequest (lowerStrobe s))

end Sys2Proof.Machine
end

