-- ==== Sys2Proof/Machine/Step.lean ====
section
/-! DEFINITION. One step of the machine (10_state.md R20, R23), and the placing of a request on the port. -/

namespace Sys2Proof.Machine

/-- A presented request is accepted as soon as the Block is ready; otherwise another agent moves (log 3). -/
def step (s : State) : Host.Outcome State Fault Refusal := if accepts s then acceptRequest s else outsideStep s

/-- The state in which the very next step accepts the request word `w` (its first `nbits` bits, the rest 0).
The Block fetches nothing (R21): the word is put on the request port, its strobe raised, and the Block idle
(log 9). -/
def State.withFetchWord (s : State) (nbits w : Nat) : State := placeRequest s (BitVec.ofNat 32 (w % 2 ^ nbits))

end Sys2Proof.Machine
end

