-- ==== Sys2Proof/Machine/Assembler.lean ====
section
/-! DEFINITION. The Requester's side: the assembler lines of 30_encoding.md R79, the pseudo-instructions of R80
and the text lines of R81, each as the actions the Requester takes. -/

namespace Sys2Proof.Machine

/-- One line of R79. A byte-string argument is the line's `#<hex>` operand. -/
inductive Line where
  | select (aid : List Byte)
  | getResponse (len : Byte)
  | getData (tag : Half)
  | putData (secure : Bool) (tag : Half) (data : List Byte)
  | getProcessingOptions
  | readRecord (record sfi : Byte)
  | externalAuthenticate (data : List Byte)
  | generateAc (type : CryptogramType) (cdol : List Byte)
  | resetPinTryCounter (mac : List Byte)
  | offlineChangePin (pin : List Byte)
  | verify (pin : List Byte)
  | applicationBlock (mac : List Byte)
  | applicationUnblock (mac : List Byte)
  | withLength (len : Byte)
  | exchange
  | decodeStatus (sw1 sw2 : Byte)
  | decodeTlv (buffer : List Byte)
deriving DecidableEq, Repr

/-- The request of a line, and the byte string it loads into `DIN`, if it has one (R79). -/
def lineParts : Line → Instr × Option (List Byte)
  | .select aid => (.select, some aid)
  | .getResponse len => (.getResponse len, none)
  | .getData tag => (.getData tag, none)
  | .putData secure tag data => (.putData secure tag, some data)
  | .getProcessingOptions => (.getProcessingOptions, none)
  | .readRecord record sfi => (.readRecord record sfi, none)
  | .externalAuthenticate data => (.externalAuthenticate, some data)
  | .generateAc type cdol => (.generateAc type, some cdol)
  | .resetPinTryCounter mac => (.resetPinTryCounter, some mac)
  | .offlineChangePin pin => (.offlineChangePin, some pin)
  | .verify pin => (.verify, some pin)
  | .applicationBlock mac => (.applicationBlock, some mac)
  | .applicationUnblock mac => (.applicationUnblock, some mac)
  | .withLength len => (.withLength len, none)
  | .exchange => (.exchange, none)
  | .decodeStatus sw1 sw2 => (.decodeStatus sw1 sw2, none)
  | .decodeTlv buffer => (.decodeTlv, some buffer)

/-- What the Requester does for a line: it loads `DIN` if the line has a `#` operand, of at most 255 bytes, and
presents the word (R79). -/
def assemble (l : Line) : Except Refusal (List Stimulus) :=
  match (lineParts l).2 with
  | none => .ok [.present (encode (lineParts l).1)]
  | some bytes =>
    if 255 < bytes.length then .error .operandTooLong
    else .ok [.driveDin (BitVec.ofNat 8 bytes.length) (dinOf bytes), .present (encode (lineParts l).1)]

/-- The actions of a sequence of lines. -/
def assembleAll : List Line → Except Refusal (List Stimulus)
  | [] => .ok []
  | l :: ls =>
    match assemble l, assembleAll ls with
    | .ok xs, .ok ys => .ok (xs ++ ys)
    | .error e, _ => .error e
    | .ok _, .error e => .error e

/-- The pseudo-instructions of R80. -/
inductive Pseudo where
  | selectApplication (aid : List Byte)
  | getDataOp (tag : Half)
  | putDataOp (secure : Bool) (tag : Half) (data : List Byte)
  | readRecordOp (record sfi : Byte)
  | verifyOp (pin : List Byte)
  | getProcessingOptionsOp
  | generateAcOp (type : CryptogramType) (cdol : List Byte)
  | externalAuthenticateOp (data : List Byte)
  | unblockPinOp (mac : List Byte)
  | applicationBlockOp (mac : List Byte)
  | applicationUnblockOp (mac : List Byte)
deriving DecidableEq, Repr

/-- R80, R223: the builder request, then EXCHANGE. -/
def expandPseudo : Pseudo → List Line
  | .selectApplication aid => [.select aid, .exchange]
  | .getDataOp tag => [.getData tag, .exchange]
  | .putDataOp secure tag data => [.putData secure tag data, .exchange]
  | .readRecordOp record sfi => [.readRecord record sfi, .exchange]
  | .verifyOp pin => [.verify pin, .exchange]
  | .getProcessingOptionsOp => [.getProcessingOptions, .exchange]
  | .generateAcOp type cdol => [.generateAc type cdol, .exchange]
  | .externalAuthenticateOp data => [.externalAuthenticate data, .exchange]
  | .unblockPinOp mac => [.resetPinTryCounter mac, .exchange]
  | .applicationBlockOp mac => [.applicationBlock mac, .exchange]
  | .applicationUnblockOp mac => [.applicationUnblock mac, .exchange]

/-- The text lines of R81. A tag is written with one or two bytes. -/
inductive TextLine where
  | select (aid : List Byte)
  | getProcessingOptions
  | readRecord (record sfi : Byte)
  | generateAc (type : CryptogramType) (cdol : Option (List Byte))
  | getData (tag : TagId)
  | putData (tag : TagId) (value : List Byte)
  | pinUnblock
deriving DecidableEq, Repr

/-- R81: a 1-byte tag is zero-extended, an absent cdol is empty, `put_data` is plain, and `pin_unblock` has no
expansion (U13). -/
def expandText : TextLine → Except Refusal Pseudo
  | .select aid => .ok (.selectApplication aid)
  | .getProcessingOptions => .ok .getProcessingOptionsOp
  | .readRecord record sfi => .ok (.readRecordOp record sfi)
  | .generateAc type cdol => .ok (.generateAcOp type (cdol.getD []))
  | .getData tag => .ok (.getDataOp (tagCode tag))
  | .putData tag value => .ok (.putDataOp false (tagCode tag) value)
  | .pinUnblock => .error .pinUnblockHasNoMac

end Sys2Proof.Machine
end

