-- ==== Sys2Proof/Safety.lean ====
section
/-! DEFINITION. The terms claims are stated in: well-formed Commands and records, command shapes, the
encoding of records, what a buffer says under the TLV rules, and the invariant of the machine. -/

namespace Sys2Proof.Machine

/-- R26: "if `data` is present, `lc == length(data)`", and a data operand has at most 255 bytes. -/
def commandOk (c : Command) : Prop :=
  ∀ d, c.data = some d → d.length ≤ 255 ∧ c.lc = some (BitVec.ofNat 8 d.length)

/-- The command shapes of R72. -/
inductive Shape where
  | headerOnly
  | headerLe
  | headerLcData
  | headerLc
  | headerLcDataLe
deriving DecidableEq, Repr

/-- The shape of a Command (R72); `none` for a combination of fields that R72 does not list. -/
def shapeOf (c : Command) : Option Shape :=
  match c.lc, c.data, c.le with
  | none, none, none => some .headerOnly
  | none, none, some _ => some .headerLe
  | some _, some _, none => some .headerLcData
  | some _, none, none => some .headerLc
  | some _, some _, some _ => some .headerLcDataLe
  | _, _, _ => none

/-- R32 with R178: a record the decoder may output. -/
def recordOk (c : Config) (r : TlvRecord) : Prop :=
  r.value.length = r.length.toNat ∧ tagClass c r.tag = some .primitive

/-- `tagbytes` of R183. -/
def tagBytes : TagId → List Byte
  | .one b => [b]
  | .two v => [hi v, lo v]

/-- One record of `encode(rs)` of R183. -/
def recordBytes (r : TlvRecord) : List Byte := tagBytes r.tag ++ [r.length] ++ r.value

/-- `encode(rs)` of R183. -/
def recordsBytes (rs : List TlvRecord) : List Byte := rs.flatMap recordBytes

/-- What a buffer says under R177 and R178, written without a loop or a stack: a sequence of primitive records
and of templates, and a template stands for the records inside it. -/
inductive Spells (c : Config) : List Byte → List TlvRecord → Prop where
  | empty : Spells c [] []
  | primitive (r : TlvRecord) (rest : List Byte) (rs : List TlvRecord) :
      recordOk c r → Spells c rest rs → Spells c (recordBytes r ++ rest) (r :: rs)
  | template (t : TlvRecord) (rest : List Byte) (inner rs : List TlvRecord) :
      tagClass c t.tag = some .constructed → t.value.length = t.length.toNat → Spells c t.value inner →
      Spells c rest rs → Spells c (recordBytes t ++ rest) (inner ++ rs)

/-- The measure of R182 (b): three times the bytes in all frames, plus the number of frames. -/
def stackMeasure (stack : List (List Byte)) : Nat := 3 * (stack.map List.length).sum + stack.length

/-- The shape each builder request produces (R72); `none` for the four requests that are no builder. -/
def builtShape : Instr → Option Shape
  | .select => some .headerLcData
  | .getResponse _ => some .headerLe
  | .getData _ => some .headerOnly
  | .putData _ _ => some .headerLcData
  | .getProcessingOptions => some .headerLcData
  | .readRecord _ _ => some .headerOnly
  | .externalAuthenticate => some .headerLcData
  | .generateAc _ => some .headerLcData
  | .resetPinTryCounter => some .headerLcData
  | .offlineChangePin => some .headerLcData
  | .verify => some .headerLcData
  | .applicationBlock => some .headerLcData
  | .applicationUnblock => some .headerLcData
  | .withLength _ => none
  | .exchange => none
  | .decodeStatus _ _ => none
  | .decodeTlv => none

/-- The words of a format-N row (R73, R75, R76): with this `OP`, the word is the request if `REQ[23:0]` is zero, and
illegal otherwise. -/
def decodesN (op : Byte) (i : Instr) : Prop :=
  ∀ w : Word, w.extractLsb 31 24 = op → decode w = if w.extractLsb 23 0 = 0#24 then .ok i else .error .reservedBits

/-- The builders with a data operand (R75). -/
def takesData : Instr → Bool
  | .select => true
  | .getResponse _ => false
  | .getData _ => false
  | .putData _ _ => true
  | .getProcessingOptions => false
  | .readRecord _ _ => false
  | .externalAuthenticate => true
  | .generateAc _ => true
  | .resetPinTryCounter => true
  | .offlineChangePin => true
  | .verify => true
  | .applicationBlock => true
  | .applicationUnblock => true
  | .withLength _ => false
  | .exchange => false
  | .decodeStatus _ _ => false
  | .decodeTlv => false

/-- Whether a register holds a value (R37): its valid bit, or true where it has none. -/
def holdsValue (s : State) : Reg → Bool
  | .reqReady => true
  | .cmdValid => true
  | .cmd => s.cmdValid
  | .tx => true
  | .fsmState => true
  | .respValid => true
  | .respStatus => s.respValid
  | .respSw => s.respValid
  | .respRaw => s.respValid
  | .respTlv => s.respValid
  | .respTlvDiag => s.respValid
  | .err => true
  | .dsValid => true
  | .dsStatus => s.dsValid
  | .dtValid => true
  | .dtTlv => s.dtValid
  | .dtDiag => s.dtValid

/-- The two continuation statuses of R156. -/
def isContinuation : Status → Bool
  | .responseAvailable _ => true
  | .wrongLengthLe _ => true
  | .ok => false
  | .selectedFileInvalidated => false
  | .wrongLength => false
  | .securityConditionNotSatisfied => false
  | .conditionsOfUseNotSatisfied => false
  | .fileNotFound => false
  | .referencedDataNotFound => false
  | .instructionCodeNotSupported => false
  | .unknown => false

/-- The actions with which the Requester waits while a transmission is pending (R23, R276; log 3). -/
def waitsWhilePending : Stimulus → Bool
  | .driveDin _ _ => true
  | .present _ => true
  | .read _ => false
  | .deliver _ => false
  | .lateAnswer _ => false
  | .reset => false

/-- The state after a Response is surfaced (R221): the five registers, `RESP_VALID` and `FSM_STATE`, nothing else. -/
def surfaced (s : State) (st : Status) (sw1 sw2 : Byte) (payload : List Byte) (rs : List TlvRecord) (d : TlvDiag) : State :=
  { s with
    respStatus := st, respSw := (sw1, sw2), respRaw := payload, respTlv := rs, respTlvDiag := d, respValid := true,
    fsm := .done }

/-- The six Response registers (R33) are the same in two states. -/
def sameResponse (s t : State) : Prop :=
  t.respValid = s.respValid ∧ t.respStatus = s.respStatus ∧ t.respSw = s.respSw ∧ t.respRaw = s.respRaw ∧
    t.respTlv = s.respTlv ∧ t.respTlvDiag = s.respTlvDiag

/-- How many more transmissions the protocol may make before it is `Done` (R219). -/
def continuationsLeft : FsmState → Nat
  | .done => 0
  | .sent => 1
  | .awaitingMore => 0
  | .awaitingRetry => 0

/-- The invariant of the machine: what every register holds under its valid bit, and what is on the wire while a
transmission is pending. -/
structure Inv (s : State) : Prop where
  /-- R23: no request stands on the port while a transmission is pending. -/
  port : s.reqValid = true → s.fsm = .done
  /-- R26. -/
  command : s.cmdValid = true → commandOk s.cmd
  /-- R28. -/
  txBound : s.tx.length ≤ 261
  /-- R211: an exchange runs only a Command that exists. -/
  pendingCommand : s.fsm ≠ .done → s.cmdValid = true
  /-- R211, R220: no Response is readable while an exchange is pending. -/
  pendingResponse : s.fsm ≠ .done → s.respValid = false
  /-- R211, R240: a pending exchange has no error. -/
  pendingError : s.fsm ≠ .done → s.err = .none
  /-- R214: what is pending is what was handed over last. -/
  pendingWire : s.fsm ≠ .done → s.transmitted.head? = some s.tx
  /-- R29, code 1. -/
  sent : s.fsm = .sent → s.tx = serialize s.cmd
  /-- R29, code 2. -/
  awaitingMore : s.fsm = .awaitingMore → ∃ n, s.tx = serialize (cmdGetResponse s.cfg n)
  /-- R29, code 3. -/
  awaitingRetry : s.fsm = .awaitingRetry → ∃ n, s.tx = serialize (withLength s.cmd n)
  /-- R33, R200, R213: a surfaced Response is the envelope of its own bytes, and no longer than the reply limit. -/
  response : s.respValid = true →
    s.respStatus = decodeStatus s.respSw.1 s.respSw.2 ∧ s.respRaw.length + 2 ≤ s.cfg.rxMax ∧
      (s.respTlv, s.respTlvDiag) = tlvOutcome (tlvDecode s.cfg s.respRaw)
  /-- R32, R36: a decode result holds only well-formed primitive records, and none after a failure. -/
  records : s.dtValid = true → (s.dtDiag ≠ .decoded → s.dtTlv = []) ∧ ∀ r ∈ s.dtTlv, recordOk s.cfg r

end Sys2Proof.Machine
end

