-- ==== Sys2Proof/Certificates/Slice0/Obligations.lean ====
section
/-! DEFINITION. The statements for the provers, from the numbered rules of spec/. -/

open Sys2Proof Sys2Proof.Machine

/-! ## Encoding -/

/-- R73 to R75: encoding a request and decoding the word gives the request back, for every operand. -/
def Obligations.DecodeOfEncodeIsTheRequest : Prop := ∀ i : Instr, decode (encode i) = .ok i

/-- R73, R76: a word the decoder accepts is the word its request encodes to, so no bit of it is ignored. -/
def Obligations.EncodeOfDecodedWordIsTheWord : Prop := ∀ (w : Word) (i : Instr), decode w = .ok i → encode i = w

/-- R76, R242: the decoder rejects exactly the illegal words, and accepting one writes `ERR` alone (and lowers the
strobe: log 7). -/
def Obligations.IllegalWordOnlySetsErr : Prop :=
  (∀ w : Word, (∃ b, decode w = .error b) ↔ illegalWord w = true) ∧
  ∀ s : State, s.reqValid = true → s.fsm = .done → illegalWord s.req = true →
    step s = .next { s with reqValid := false, err := .illegalRequest }

/-- R73 to R75, on words of 95_test_vectors.md. -/
def Obligations.SampleWordsDecode : Prop :=
  decode 0x01000000#32 = .ok .select ∧ decode 0x0200001A#32 = .ok (.getResponse 0x1A) ∧
  decode 0x03009F36#32 = .ok (.getData 0x9F36) ∧ decode 0x04015F2D#32 = .ok (.putData true 0x5F2D) ∧
  decode 0x0600010C#32 = .ok (.readRecord 0x01 0x0C) ∧ decode 0x08010000#32 = .ok (.generateAc .arqc) ∧
  decode 0x0E00002F#32 = .ok (.withLength 0x2F) ∧ decode 0x10000000#32 = .ok .exchange ∧
  decode 0x11006A82#32 = .ok (.decodeStatus 0x6A 0x82) ∧ decode 0x12000000#32 = .ok .decodeTlv ∧
  decode 0x08030000#32 = .error .reservedType ∧ decode 0x0601FFFF#32 = .error .reservedBits ∧
  decode 0x13000000#32 = .error .unassignedOp

/-! ## The step -/

/-- R23, R54: a presented legal request is accepted when the Block is ready, and the step is its meaning. Around it
the step lowers the strobe (log 7). -/
def Obligations.StepRunsTheAcceptedRequest : Prop :=
  ∀ (s : State) (i : Instr), s.reqValid = true → s.fsm = .done → decode s.req = .ok i →
    step s = exec i { s with reqValid := false }

/-- The model's own placing of a word (log 9): the very next step runs the request that the table word encodes. -/
def Obligations.PlacedWordRunsNext : Prop :=
  ∀ (s : State) (w : Nat) (i : Instr), decodeTableWord 32 w = some i →
    step (s.withFetchWord 32 w) =
      exec i { s with req := BitVec.ofNat 32 (w % 2 ^ 32), reqValid := false, fsm := .done }

/-- R222: while a transmission is pending and the Transport and the host do nothing, no step moves the machine,
whatever the Requester has to present next. -/
def Obligations.PendingExchangeWaits : Prop :=
  ∀ s : State, s.fsm ≠ .done → (∀ a ∈ s.agenda, waitsWhilePending a = true) → step s = .next s

/-! ## Byte utilities and serialisation -/

/-- R100 to R103 on numbers: the high byte, the low byte, the pair with the first byte high, and their laws. -/
def Obligations.ByteUtilityLaws : Prop :=
  (∀ v : Half, (hi v).toNat = v.toNat / 256 ∧ (lo v).toNat = v.toNat % 256 ∧ combine (hi v) (lo v) = v) ∧
  ∀ a b : Byte, (combine a b).toNat = 256 * a.toNat + b.toNat ∧ hi (combine a b) = a ∧ lo (combine a b) = b

/-- R71: the bytes, that `name` is not among them, their number, and the bound for a Command that satisfies R26. -/
def Obligations.SerializedCommandLayout : Prop :=
  ∀ c : Command,
    serialize c = [c.cla, c.ins, c.p1, c.p2] ++ c.lc.toList ++ c.data.getD [] ++ c.le.toList ∧
    (∀ n : Op, serialize { c with name := n } = serialize c) ∧
    (serialize c).length =
      4 + (if c.lc.isSome then 1 else 0) + (c.data.getD []).length + (if c.le.isSome then 1 else 0) ∧
    (commandOk c → (serialize c).length ≤ 261)

/-! ## Builder requests -/

/-- R112: SELECT, its words, and its effect from every state. -/
def Obligations.SelectWritesItsCommand : Prop :=
  decodesN 0x01#8 .select ∧ ∀ s : State, exec .select s = .next
    { s with
      cmd := ⟨.select, 0x00, 0xA4, 0x04, 0x00, some s.dinLen, some (s.din.toList.take s.dinLen.toNat), none⟩,
      cmdValid := true, err := .none }

/-- R113: GET_RESPONSE, its words, and its effect from every state, for every length. -/
def Obligations.GetResponseWritesItsCommand : Prop :=
  (∀ w : Word, w.extractLsb 31 24 = 0x02#8 →
    decode w = if w.extractLsb 23 8 = 0#16 then .ok (.getResponse (w.extractLsb 7 0)) else .error .reservedBits) ∧
  ∀ (n : Byte) (s : State), exec (.getResponse n) s = .next
    { s with
      cmd := ⟨.getResponse, s.cfg.hdrGetResponse.cla, s.cfg.hdrGetResponse.ins, s.cfg.hdrGetResponse.p1,
        s.cfg.hdrGetResponse.p2, none, none, some n⟩,
      cmdValid := true, err := .none }

/-- R114, R117: GET_DATA and READ_RECORD, the builders with neither Lc, data nor Le. -/
def Obligations.HeaderOnlyBuildersWriteTheirCommand : Prop :=
  (∀ w : Word, w.extractLsb 31 24 = 0x03#8 →
    decode w = if w.extractLsb 23 16 = 0#8 then .ok (.getData (w.extractLsb 15 0)) else .error .reservedBits) ∧
  (∀ w : Word, w.extractLsb 31 24 = 0x06#8 →
    decode w = if w.extractLsb 23 16 = 0#8 then .ok (.readRecord (w.extractLsb 15 8) (w.extractLsb 7 0))
      else .error .reservedBits) ∧
  (∀ (tag : Half) (s : State), exec (.getData tag) s = .next
    { s with
      cmd := ⟨.getData, s.cfg.claGetData, s.cfg.insGetData, BitVec.ofNat 8 (tag.toNat / 256), BitVec.ofNat 8 (tag.toNat % 256),
        none, none, none⟩,
      cmdValid := true, err := .none }) ∧
  ∀ (record sfi : Byte) (s : State), exec (.readRecord record sfi) s = .next
    { s with
      cmd := ⟨.readRecord, s.cfg.claReadRecord, s.cfg.insReadRecord, record, sfi, none, none, none⟩,
      cmdValid := true, err := .none }

/-- R115: PUT_DATA, secure and plain. -/
def Obligations.PutDataWritesItsCommand : Prop :=
  (∀ w : Word, w.extractLsb 31 24 = 0x04#8 →
    decode w = if w.extractLsb 23 17 = 0#7 then .ok (.putData (w.getLsbD 16) (w.extractLsb 15 0)) else .error .reservedBits) ∧
  ∀ (tag : Half) (s : State),
    (exec (.putData true tag) s = .next
      { s with
        cmd := ⟨.putData, s.cfg.claPutSecure, s.cfg.insPutData, BitVec.ofNat 8 (tag.toNat / 256),
          BitVec.ofNat 8 (tag.toNat % 256), some s.dinLen, some (s.din.toList.take s.dinLen.toNat), none⟩,
        cmdValid := true, err := .none }) ∧
    exec (.putData false tag) s = .next
      { s with
        cmd := ⟨.putData, s.cfg.claPutPlain, s.cfg.insPutData, BitVec.ofNat 8 (tag.toNat / 256),
          BitVec.ofNat 8 (tag.toNat % 256), some s.dinLen, some (s.din.toList.take s.dinLen.toNat), none⟩,
        cmdValid := true, err := .none }

/-- R116: GET_PROCESSING_OPTIONS reads no operand: Lc is 2 and the body is the parameter. -/
def Obligations.GetProcessingOptionsWritesItsCommand : Prop :=
  decodesN 0x05#8 .getProcessingOptions ∧
  ∀ s : State, exec .getProcessingOptions s = .next
    { s with
      cmd := ⟨.getProcessingOptions, s.cfg.hdrGetProcessingOptions.cla, s.cfg.hdrGetProcessingOptions.ins,
        s.cfg.hdrGetProcessingOptions.p1, s.cfg.hdrGetProcessingOptions.p2, some 2, some [s.cfg.gpoBody.1, s.cfg.gpoBody.2], none⟩,
      cmdValid := true, err := .none }

/-- R118, R122: EXTERNAL_AUTHENTICATE and VERIFY. -/
def Obligations.AuthenticateAndVerifyWriteTheirCommand : Prop :=
  decodesN 0x07#8 .externalAuthenticate ∧ decodesN 0x0B#8 .verify ∧
  ∀ s : State,
    (exec .externalAuthenticate s = .next
      { s with
        cmd := ⟨.externalAuthenticate, s.cfg.hdrExternalAuthenticate.cla, s.cfg.hdrExternalAuthenticate.ins,
          s.cfg.hdrExternalAuthenticate.p1, s.cfg.hdrExternalAuthenticate.p2, some s.dinLen,
          some (s.din.toList.take s.dinLen.toNat), none⟩,
        cmdValid := true, err := .none }) ∧
    exec .verify s = .next
      { s with
        cmd := ⟨.verify, s.cfg.hdrVerify.cla, s.cfg.hdrVerify.ins, s.cfg.hdrVerify.p1, s.cfg.hdrVerify.p2, some s.dinLen,
          some (s.din.toList.take s.dinLen.toNat), none⟩,
        cmdValid := true, err := .none }

/-- R119: GENERATE_AC with each type's reference-control byte in P1, and its words; the fourth TYPE code is illegal. -/
def Obligations.GenerateAcWritesItsCommand : Prop :=
  (∀ (t : CryptogramType) (rc : Byte) (s : State),
    (t = .aac ∧ rc = s.cfg.rcAac) ∨ (t = .arqc ∧ rc = s.cfg.rcArqc) ∨ (t = .tc ∧ rc = s.cfg.rcTc) →
    exec (.generateAc t) s = .next
      { s with
        cmd := ⟨.generateAc, s.cfg.claGenerateAc, s.cfg.insGenerateAc, rc, s.cfg.p2GenerateAc, some s.dinLen,
          some (s.din.toList.take s.dinLen.toNat), none⟩,
        cmdValid := true, err := .none }) ∧
  ∀ w : Word, w.extractLsb 31 24 = 0x08#8 →
    decode w =
      if w.extractLsb 23 18 = 0#6 ∧ w.extractLsb 15 0 = 0#16 then
        if w.extractLsb 17 16 = 0b00#2 then .ok (.generateAc .aac)
        else if w.extractLsb 17 16 = 0b01#2 then .ok (.generateAc .arqc)
        else if w.extractLsb 17 16 = 0b10#2 then .ok (.generateAc .tc)
        else .error .reservedType
      else .error .reservedBits

/-- R120, R121: RESET_PIN_TRY_COUNTER and OFFLINE_CHANGE_PIN. -/
def Obligations.PinBuildersWriteTheirCommand : Prop :=
  decodesN 0x09#8 .resetPinTryCounter ∧ decodesN 0x0A#8 .offlineChangePin ∧
  ∀ s : State,
    (exec .resetPinTryCounter s = .next
      { s with
        cmd := ⟨.resetPinTryCounter, s.cfg.hdrResetPinTryCounter.cla, s.cfg.hdrResetPinTryCounter.ins,
          s.cfg.hdrResetPinTryCounter.p1, s.cfg.hdrResetPinTryCounter.p2, some s.dinLen,
          some (s.din.toList.take s.dinLen.toNat), none⟩,
        cmdValid := true, err := .none }) ∧
    exec .offlineChangePin s = .next
      { s with
        cmd := ⟨.offlineChangePin, s.cfg.hdrOfflineChangePin.cla, s.cfg.hdrOfflineChangePin.ins,
          s.cfg.hdrOfflineChangePin.p1, s.cfg.hdrOfflineChangePin.p2, some s.dinLen,
          some (s.din.toList.take s.dinLen.toNat), none⟩,
        cmdValid := true, err := .none }

/-- R123, R124: APPLICATION_BLOCK and APPLICATION_UNBLOCK. -/
def Obligations.ApplicationBuildersWriteTheirCommand : Prop :=
  decodesN 0x0C#8 .applicationBlock ∧ decodesN 0x0D#8 .applicationUnblock ∧
  ∀ s : State,
    (exec .applicationBlock s = .next
      { s with
        cmd := ⟨.applicationBlock, s.cfg.hdrApplicationBlock.cla, s.cfg.hdrApplicationBlock.ins,
          s.cfg.hdrApplicationBlock.p1, s.cfg.hdrApplicationBlock.p2, some s.dinLen,
          some (s.din.toList.take s.dinLen.toNat), none⟩,
        cmdValid := true, err := .none }) ∧
    exec .applicationUnblock s = .next
      { s with
        cmd := ⟨.applicationUnblock, s.cfg.hdrApplicationUnblock.cla, s.cfg.hdrApplicationUnblock.ins,
          s.cfg.hdrApplicationUnblock.p1, s.cfg.hdrApplicationUnblock.p2, some s.dinLen,
          some (s.din.toList.take s.dinLen.toNat), none⟩,
        cmdValid := true, err := .none }

/-- R110, R126: what all builders, and WITH_LENGTH with a Command to change, share. Each completes, writes `CMD`,
`CMD_VALID` and `ERR` and nothing else; its Command satisfies R26, has the shape of R72, takes `DIN[0..DIN_LEN)` as data
where it takes data, and only GET_RESPONSE sets Le. -/
def Obligations.EveryBuilderWritesOnlyTheCommand : Prop :=
  (∀ (i : Instr) (sh : Shape) (s : State), builtShape i = some sh →
    ∃ c : Command, exec i s = .next { s with cmd := c, cmdValid := true, err := .none } ∧
      commandOk c ∧ shapeOf c = some sh ∧ (serialize c).take 4 = [c.cla, c.ins, c.p1, c.p2] ∧
      (c.le.isSome = true → ∃ n, i = .getResponse n) ∧
      (takesData i = true →
        c.lc = some s.dinLen ∧ c.data = some (s.din.toList.take s.dinLen.toNat) ∧
        serialize c = [c.cla, c.ins, c.p1, c.p2] ++ [s.dinLen] ++ s.din.toList.take s.dinLen.toNat ∧
        (serialize c).length = 5 + s.dinLen.toNat)) ∧
  ∀ (n : Byte) (s : State), s.cmdValid = true →
    ∃ c : Command, exec (.withLength n) s = .next { s with cmd := c, cmdValid := true, err := .none } ∧
      commandOk c ∧ (serialize c).take 4 = (serialize s.cmd).take 4 ∧ (serialize c).length = 5 ∧ c.le = none

/-- R125: WITH_LENGTH, its words, its effect with and without a Command, and its corner cases. -/
def Obligations.WithLengthReplacesLcAndDropsData : Prop :=
  (∀ w : Word, w.extractLsb 31 24 = 0x0E#8 →
    decode w = if w.extractLsb 23 8 = 0#16 then .ok (.withLength (w.extractLsb 7 0)) else .error .reservedBits) ∧
  (∀ (n : Byte) (s : State), s.cmdValid = true → exec (.withLength n) s = .next
    { s with
      cmd := ⟨s.cmd.name, s.cmd.cla, s.cmd.ins, s.cmd.p1, s.cmd.p2, some n, none, none⟩, cmdValid := true, err := .none }) ∧
  (∀ (n : Byte) (s : State), s.cmdValid = false → exec (.withLength n) s = .next { s with err := .noCommand }) ∧
  (∀ (c : Command) (n : Byte), serialize (withLength c n) = [c.cla, c.ins, c.p1, c.p2, n]) ∧
  (∀ (aid : List Byte) (n : Byte), serialize (withLength (cmdSelect aid) n) = [0x00, 0xA4, 0x04, 0x00, n]) ∧
  (∀ (c : Config) (m n : Byte), serialize (withLength (cmdGetResponse c m) n) = serialize (cmdGetResponse c n)) ∧
  ∀ (c : Command) (m n : Byte), withLength (withLength c m) n = withLength c n

/-! ## Status words -/

/-- R150 to R153, R156: which status words give each Status. -/
def Obligations.StatusWordMapping : Prop :=
  ∀ sw1 sw2 : Byte,
    (∀ n, decodeStatus sw1 sw2 = .responseAvailable n ↔ sw1 = 0x61 ∧ sw2 = n) ∧
    (∀ n, decodeStatus sw1 sw2 = .wrongLengthLe n ↔ sw1 = 0x6C ∧ sw2 = n) ∧
    (decodeStatus sw1 sw2 = .selectedFileInvalidated ↔ sw1 = 0x62 ∧ sw2 = 0x83) ∧
    (decodeStatus sw1 sw2 = .wrongLength ↔ sw1 = 0x67 ∧ sw2 = 0x00) ∧
    (decodeStatus sw1 sw2 = .securityConditionNotSatisfied ↔ sw1 = 0x69 ∧ sw2 = 0x82) ∧
    (decodeStatus sw1 sw2 = .conditionsOfUseNotSatisfied ↔ sw1 = 0x69 ∧ sw2 = 0x85) ∧
    (decodeStatus sw1 sw2 = .fileNotFound ↔ sw1 = 0x6A ∧ sw2 = 0x82) ∧
    (decodeStatus sw1 sw2 = .referencedDataNotFound ↔ sw1 = 0x6A ∧ sw2 = 0x88) ∧
    (decodeStatus sw1 sw2 = .instructionCodeNotSupported ↔ sw1 = 0x6D ∧ sw2 = 0x00) ∧
    (decodeStatus sw1 sw2 = .ok ↔ sw1 = 0x90 ∧ sw2 = 0x00) ∧
    (decodeStatus sw1 sw2 = .unknown ↔
      sw1 ≠ 0x61 ∧ sw1 ≠ 0x6C ∧
        combine sw1 sw2 ∉ ([0x6283, 0x6700, 0x6982, 0x6985, 0x6A82, 0x6A88, 0x6D00, 0x9000] : List Half)) ∧
    (isContinuation (decodeStatus sw1 sw2) = true ↔ sw1 = 0x61 ∨ sw1 = 0x6C)

/-- R30: the code of each Status; two Status values with the same code are the same, the kinds 0xA to 0xE are never
produced, and `len` is 0 for the variants without a length. -/
def Obligations.StatusCodesAreFaithful : Prop :=
  (statusKind .ok = 0x0 ∧ (∀ n, statusKind (.responseAvailable n) = 0x1) ∧ (∀ n, statusKind (.wrongLengthLe n) = 0x2) ∧
    statusKind .selectedFileInvalidated = 0x3 ∧ statusKind .wrongLength = 0x4 ∧
    statusKind .securityConditionNotSatisfied = 0x5 ∧ statusKind .conditionsOfUseNotSatisfied = 0x6 ∧
    statusKind .fileNotFound = 0x7 ∧ statusKind .referencedDataNotFound = 0x8 ∧
    statusKind .instructionCodeNotSupported = 0x9 ∧ statusKind .unknown = 0xF) ∧
  (∀ a b : Status, statusKind a = statusKind b → statusLen a = statusLen b → a = b) ∧
  (∀ a : Status, (statusKind a).toNat ≤ 9 ∨ (statusKind a).toNat = 15) ∧
  (∀ a : Status, isContinuation a = false → statusLen a = 0) ∧
  (∀ n : Byte, statusLen (.responseAvailable n) = n ∧ statusLen (.wrongLengthLe n) = n)

/-- R155: DECODE_STATUS, its effect from every state for every pair of bytes, and its words. -/
def Obligations.DecodeStatusRequestRecordsTheStatus : Prop :=
  (∀ (sw1 sw2 : Byte) (s : State),
    exec (.decodeStatus sw1 sw2) s =
      .next { s with dsStatus := decodeStatus sw1 sw2, dsValid := true, err := .none }) ∧
  ∀ w : Word, w.extractLsb 31 24 = 0x11#8 →
    decode w = if w.extractLsb 23 16 = 0#8 then .ok (.decodeStatus (w.extractLsb 15 8) (w.extractLsb 7 0))
      else .error .reservedBits

/-! ## TLV -/

/-- R173 to R176: one record header, with its checks in order, for 1-byte and 2-byte tags. -/
def Obligations.TlvHeaderRules : Prop :=
  ∀ c : Config,
    readPiece c [] = .error .truncated ∧
    (∀ x : Byte, readPiece c [x] = .error .truncated) ∧
    (∀ (x y : Byte) (tl : List Byte), c.tags1.lookup x = none → c.tags2.lookup (combine x y) = none →
      readPiece c (x :: y :: tl) = .error .unknownTag) ∧
    (∀ (x len : Byte) (k : TagClass) (body : List Byte), c.tags1.lookup x = some k →
      readPiece c (x :: len :: body) =
        if body.length < len.toNat then .error .truncated
        else .ok ⟨k, ⟨.one x, len, body.take len.toNat⟩, body.drop len.toNat⟩) ∧
    (∀ (x y : Byte) (k : TagClass), c.tags1.lookup x = none → c.tags2.lookup (combine x y) = some k →
      readPiece c [x, y] = .error .truncated) ∧
    ∀ (x y len : Byte) (k : TagClass) (body : List Byte), c.tags1.lookup x = none →
      c.tags2.lookup (combine x y) = some k →
      readPiece c (x :: y :: len :: body) =
        if body.length < len.toNat then .error .truncated
        else .ok ⟨k, ⟨.two (combine x y), len, body.take len.toNat⟩, body.drop len.toNat⟩

/-- R183: the round-trip law, in both sibling modes. -/
def Obligations.TlvRoundTrip : Prop :=
  ∀ (c : Config) (rs : List TlvRecord), c.catalogueOk = true → (∀ r ∈ rs, recordOk c r) →
    tlvDecode c (recordsBytes rs) = .ok rs

/-- R177, R178, R180, R182 (d): with siblings preserved, the loop with its stack of frames decodes a buffer to a list
of records exactly when the buffer spells that list. -/
def Obligations.TlvDecodesExactlyWhatTheBufferSpells : Prop :=
  ∀ (c : Config) (buf : List Byte) (rs : List TlvRecord), c.catalogueOk = true → c.siblings = .preserve →
    (tlvDecode c buf = .ok rs ↔ Spells c buf rs)

/-- R179: in DISCARD mode the bytes after a template are never read; the records before it are kept. -/
def Obligations.DiscardModeDropsSiblings : Prop :=
  ∀ (c : Config) (before : List TlvRecord) (t : TlvRecord) (rest : List Byte), c.catalogueOk = true →
    c.siblings = .discard → (∀ r ∈ before, recordOk c r) → tagClass c t.tag = some .constructed →
    t.value.length = t.length.toNat →
    tlvDecode c (recordsBytes before ++ (recordBytes t ++ rest)) =
      match tlvDecode c t.value with
      | .ok rs => .ok (before ++ rs)
      | .error e => .error e

/-- R180, R182 (b): each turn of the loop spends one of its bound and lowers the measure by at least 1, from an exhausted
frame as from a record, in both sibling modes; so the loop ends, a bound of at least the measure changes no result, and the
bound `tlvDecode` gives is the measure of its first stack (log 8). -/
def Obligations.TlvLoopIsBoundedByItsMeasure : Prop :=
  (∀ stack : List (List Byte), stackMeasure stack + 1 ≤ stackMeasure ([] :: stack)) ∧
  (∀ (c : Config) (f : List Byte) (stack : List (List Byte)) (p : TlvPiece), readPiece c f = .ok p →
    stackMeasure (p.rest :: stack) + 1 ≤ stackMeasure (f :: stack) ∧
      stackMeasure (descend c.siblings p stack) + 1 ≤ stackMeasure (f :: stack)) ∧
  (∀ (c : Config) (n : Nat) (stack : List (List Byte)) (out : List TlvRecord),
    tlvLoop c n [] out = .ok out ∧ tlvLoop c (n + 1) ([] :: stack) out = tlvLoop c n stack out) ∧
  (∀ (c : Config) (n : Nat) (f : List Byte) (stack : List (List Byte)) (out : List TlvRecord), f ≠ [] →
    (∀ e, readPiece c f = .error e → tlvLoop c (n + 1) (f :: stack) out = .error e) ∧
    (∀ p, readPiece c f = .ok p → p.cls = .primitive →
      tlvLoop c (n + 1) (f :: stack) out = tlvLoop c n (p.rest :: stack) (out ++ [p.record])) ∧
    (∀ p, readPiece c f = .ok p → p.cls = .constructed →
      tlvLoop c (n + 1) (f :: stack) out = tlvLoop c n (descend c.siblings p stack) out)) ∧
  (∀ (c : Config) (n : Nat) (stack : List (List Byte)) (out : List TlvRecord), stackMeasure stack ≤ n →
    tlvLoop c n stack out = tlvLoop c (stackMeasure stack) stack out) ∧
  ∀ (c : Config) (buf : List Byte), tlvDecode c buf = tlvLoop c (stackMeasure [buf]) [buf] []

/-- R32, R182 (c), (e): the output holds well-formed primitive records, at most half as many as the buffer has bytes,
and none for the empty buffer. -/
def Obligations.TlvOutputIsWellFormed : Prop :=
  (∀ (c : Config) (buf : List Byte) (rs : List TlvRecord), tlvDecode c buf = .ok rs →
    2 * rs.length ≤ buf.length ∧ ∀ r ∈ rs, recordOk c r) ∧
  ∀ c : Config, tlvDecode c [] = .ok []

/-- R181: an error after complete records, or inside a template, is the outcome of the whole decode, in both modes. -/
def Obligations.TlvErrorAbortsTheWholeDecode : Prop :=
  ∀ (c : Config) (before : List TlvRecord) (e : TlvError), c.catalogueOk = true → (∀ r ∈ before, recordOk c r) →
    (∀ bad : List Byte, tlvDecode c bad = .error e → tlvDecode c (recordsBytes before ++ bad) = .error e) ∧
    ∀ (t : TlvRecord) (rest : List Byte), tagClass c t.tag = some .constructed → t.value.length = t.length.toNat →
      tlvDecode c t.value = .error e → tlvDecode c (recordsBytes before ++ (recordBytes t ++ rest)) = .error e

/-- R184: DECODE_TLV on each outcome of the decoder, its words, and the codes of `DT_DIAG`. -/
def Obligations.DecodeTlvRequestRecordsTheOutcome : Prop :=
  (∀ (s : State) (rs : List TlvRecord), tlvDecode s.cfg (s.din.toList.take s.dinLen.toNat) = .ok rs →
    exec .decodeTlv s = .next { s with dtTlv := rs, dtDiag := .decoded, dtValid := true, err := .none }) ∧
  (∀ s : State, tlvDecode s.cfg (s.din.toList.take s.dinLen.toNat) = .error .unknownTag →
    exec .decodeTlv s = .next { s with dtTlv := [], dtDiag := .unknownTag, dtValid := true, err := .none }) ∧
  (∀ s : State, tlvDecode s.cfg (s.din.toList.take s.dinLen.toNat) = .error .truncated →
    exec .decodeTlv s = .next { s with dtTlv := [], dtDiag := .truncated, dtValid := true, err := .none }) ∧
  decodesN 0x12#8 .decodeTlv ∧
  diagCode .decoded = 0 ∧ diagCode .unknownTag = 1 ∧ diagCode .truncated = 2

/-- DECODE_TLV completes in every state: there is a next state, and only the DT registers and `ERR` differ in it. -/
def Obligations.DecodeTlvAlwaysCompletes : Prop :=
  ∀ s : State, ∃ (rs : List TlvRecord) (d : TlvDiag),
    exec .decodeTlv s = .next { s with dtTlv := rs, dtDiag := d, dtValid := true, err := .none } ∧
    (d ≠ .decoded → rs = []) ∧ ∀ r ∈ rs, recordOk s.cfg r

/-! ## Envelope and protocol -/

/-- R200 to R203: the payload is kept whatever the status and whatever the decoder says. -/
def Obligations.EnvelopeKeepsThePayload : Prop :=
  ∀ (c : Config) (st : Status) (sw : Byte × Byte) (p : List Byte),
    (∀ rs, tlvDecode c p = .ok rs → envelope c st sw p = ⟨st, sw, p, rs, .decoded⟩) ∧
    (tlvDecode c p = .error .unknownTag → envelope c st sw p = ⟨st, sw, p, [], .unknownTag⟩) ∧
    (tlvDecode c p = .error .truncated → envelope c st sw p = ⟨st, sw, p, [], .truncated⟩) ∧
    envelope c st sw [] = ⟨st, sw, [], [], .decoded⟩

/-- R211: EXCHANGE with a Command, without one, and its words. -/
def Obligations.ExchangeTransmitsTheCommand : Prop :=
  (∀ s : State, s.cmdValid = true → exec .exchange s = .next
    { s with
      respValid := false, err := .none, tx := serialize s.cmd, transmitted := serialize s.cmd :: s.transmitted,
      fsm := .sent }) ∧
  (∀ s : State, s.cmdValid = false → exec .exchange s = .next { s with err := .noCommand }) ∧
  decodesN 0x10#8 .exchange

/-- R212, R213, R249: which answers are accepted, how an accepted one is split, and the order of the checks: a reply too
short to split is SHORT_REPLY whatever the limit, even one that it exceeds. -/
def Obligations.ReplyAcceptance : Prop :=
  ∀ c : Config,
    (∀ (p : List Byte) (sw1 sw2 : Byte), p.length + 2 ≤ c.rxMax →
      acceptAnswer c (.ok (p ++ [sw1, sw2])) = .ok (sw1, sw2, p)) ∧
    (∀ r : List Byte, r.length < 2 → acceptAnswer c (.ok r) = .error .shortReply) ∧
    (∀ r : List Byte, 2 ≤ r.length → c.rxMax < r.length → acceptAnswer c (.ok r) = .error .replyTooLong) ∧
    acceptAnswer c .transportError = .error .transport

/-- R216 to R218 and R221, as steps: an accepted reply in `Sent` continues, once, on `61xx` and `6Cxx`, and is
surfaced on every other status word. -/
def Obligations.SentStepFollowsTheStatusWord : Prop :=
  ∀ (s : State) (sw1 sw2 : Byte) (p : List Byte) (rest : List Stimulus), s.fsm = .sent →
    s.agenda = .deliver (.ok (p ++ [sw1, sw2])) :: rest → p.length + 2 ≤ s.cfg.rxMax →
    (sw1 = 0x61 → step s = .next
      { s with
        agenda := rest,
        tx := [s.cfg.hdrGetResponse.cla, s.cfg.hdrGetResponse.ins, s.cfg.hdrGetResponse.p1, s.cfg.hdrGetResponse.p2, sw2],
        transmitted := [s.cfg.hdrGetResponse.cla, s.cfg.hdrGetResponse.ins, s.cfg.hdrGetResponse.p1,
          s.cfg.hdrGetResponse.p2, sw2] :: s.transmitted,
        fsm := .awaitingMore }) ∧
    (sw1 = 0x6C → s.cmdValid = true → step s = .next
      { s with
        agenda := rest, tx := [s.cmd.cla, s.cmd.ins, s.cmd.p1, s.cmd.p2, sw2],
        transmitted := [s.cmd.cla, s.cmd.ins, s.cmd.p1, s.cmd.p2, sw2] :: s.transmitted, fsm := .awaitingRetry }) ∧
    (sw1 ≠ 0x61 → sw1 ≠ 0x6C → step s = .next
      (surfaced { s with agenda := rest } (decodeStatus sw1 sw2) sw1 sw2 p (tlvOutcome (tlvDecode s.cfg p)).1
        (tlvOutcome (tlvDecode s.cfg p)).2))

/-- R217 to R219, as steps: in `AwaitingMore` and `AwaitingRetry` an accepted reply is surfaced whatever its status
word, `61xx` and `6Cxx` among them, and nothing more is transmitted. -/
def Obligations.ContinuationReplyIsSurfaced : Prop :=
  ∀ (s : State) (sw1 sw2 : Byte) (p : List Byte) (rest : List Stimulus), s.fsm = .awaitingMore ∨ s.fsm = .awaitingRetry →
    s.agenda = .deliver (.ok (p ++ [sw1, sw2])) :: rest → p.length + 2 ≤ s.cfg.rxMax →
    step s = .next
      (surfaced { s with agenda := rest } (decodeStatus sw1 sw2) sw1 sw2 p (tlvOutcome (tlvDecode s.cfg p)).1
        (tlvOutcome (tlvDecode s.cfg p)).2)

/-- R220, R244, R245, as steps: a rejected answer in any waiting state sets `ERR`, ends the exchange and changes
nothing else. -/
def Obligations.RejectedAnswerEndsTheExchange : Prop :=
  ∀ (s : State) (a : Answer) (rest : List Stimulus), s.fsm ≠ .done → s.agenda = .deliver a :: rest →
    (a = .transportError → step s = .next { s with agenda := rest, err := .transport, fsm := .done }) ∧
    (∀ r, a = .ok r → r.length < 2 → step s = .next { s with agenda := rest, err := .shortReply, fsm := .done }) ∧
    (∀ r, a = .ok r → 2 ≤ r.length → s.cfg.rxMax < r.length →
      step s = .next { s with agenda := rest, err := .replyTooLong, fsm := .done })

/-- R219: one EXCHANGE transmits at most twice. An accepted EXCHANGE leaves one continuation; no step of a pending
exchange transmits more than that allows; and a delivery in a continuation state ends the exchange. -/
def Obligations.AtMostOneContinuation : Prop :=
  (∀ s t : State, exec .exchange s = .next t → s.fsm = .done →
    t.transmitted.length + continuationsLeft t.fsm ≤ s.transmitted.length + 2) ∧
  (∀ s t : State, step s = .next t → s.fsm ≠ .done →
    t.transmitted.length + continuationsLeft t.fsm ≤ s.transmitted.length + continuationsLeft s.fsm) ∧
  ∀ (s t : State) (a : Answer), deliver a s = .next t → (s.fsm = .awaitingMore ∨ s.fsm = .awaitingRetry) →
    t.fsm = .done ∧ t.transmitted = s.transmitted

/-- R271, R252: an answer to an abandoned transmission, and an answer when none is pending, have no effect. -/
def Obligations.UnwantedAnswersHaveNoEffect : Prop :=
  ∀ (s : State) (a : Answer) (rest : List Stimulus), s.reqValid = false →
    (s.agenda = .lateAnswer a :: rest → step s = .next { s with agenda := rest }) ∧
    (s.fsm = .done → s.agenda = .deliver a :: rest → step s = .next { s with agenda := rest })

/-! ## Reset and reads -/

/-- R270 to R272 with the values of R39: the reset event, in any protocol state, as a step. What R39 leaves
unspecified is not spoken of. -/
def Obligations.ResetEventRestoresEveryRegister : Prop :=
  ∀ (s : State) (rest : List Stimulus), s.reqValid = false → s.agenda = .reset :: rest →
    ∃ t : State, step s = .next t ∧ t.fsm = .done ∧ t.cmdValid = false ∧ t.respValid = false ∧ t.dsValid = false ∧
      t.dtValid = false ∧ t.err = .none ∧ t.tx = [] ∧ t.cfg = s.cfg ∧ t.transmitted = s.transmitted ∧ t.req = s.req ∧
      t.reqValid = s.reqValid ∧ t.dinLen = s.dinLen ∧ t.din = s.din ∧ t.agenda = rest

/-- R39: the reset values that the spec gives. -/
def Obligations.ResetStateHasTheSpecValues : Prop :=
  State.reset.fsm = .done ∧ reqReady State.reset = true ∧ State.reset.cmdValid = false ∧ State.reset.tx = [] ∧
  State.reset.respValid = false ∧ errValue State.reset.err = 0 ∧ State.reset.dsValid = false ∧ State.reset.dtValid = false

/-- R37: a read of a register that holds no value is a fault, and any other read gives a value. As steps: the first
stops the machine, the second changes nothing. That a read is one step of its own and that a permitted one changes nothing
is the model's choice (log 14); the port is quiet so that the read is the step's action, by the model's own order of the
agents (log 3). -/
def Obligations.ReadsFaultExactlyWithoutAValue : Prop :=
  (∀ (s : State) (r : Reg),
    (r = .cmd → holdsValue s r = s.cmdValid) ∧
    (r = .respStatus ∨ r = .respSw ∨ r = .respRaw ∨ r = .respTlv ∨ r = .respTlvDiag → holdsValue s r = s.respValid) ∧
    (r = .dsStatus → holdsValue s r = s.dsValid) ∧ (r = .dtTlv ∨ r = .dtDiag → holdsValue s r = s.dtValid) ∧
    (holdsValue s r = false → readReg s r = .error (.invalidRead r)) ∧
    (holdsValue s r = true → ∃ v, readReg s r = .ok v)) ∧
  ∀ (s : State) (r : Reg) (rest : List Stimulus), s.reqValid = false → s.agenda = .read r :: rest →
    (holdsValue s r = false → step s = .fault (.invalidRead r)) ∧
    (holdsValue s r = true → step s = .next { s with agenda := rest })

/-- R23, R29, R30, R33, R34, R241: what the Requester reads, in the spec's own codes. -/
def Obligations.ReadsGiveTheSpecCodes : Prop :=
  (∀ s : State, readReg s .reqReady = .ok (.bit true) ↔ s.fsm = .done) ∧
  (∀ s : State, ∃ code, readReg s .fsmState = .ok (.fsm code) ∧ (code = 0 ↔ s.fsm = .done) ∧ (code = 1 ↔ s.fsm = .sent) ∧
    (code = 2 ↔ s.fsm = .awaitingMore) ∧ (code = 3 ↔ s.fsm = .awaitingRetry)) ∧
  (∀ s : State, ∃ code, readReg s .err = .ok (.err code) ∧ (code = 0 ↔ s.err = .none) ∧ (code = 1 ↔ s.err = .transport) ∧
    (code = 2 ↔ s.err = .shortReply) ∧ (code = 3 ↔ s.err = .replyTooLong) ∧ (code = 4 ↔ s.err = .illegalRequest) ∧
    (code = 5 ↔ s.err = .noCommand)) ∧
  (∀ s : State, s.respValid = true →
    readReg s .respStatus = .ok (.status (statusKind s.respStatus) (statusLen s.respStatus)) ∧
    readReg s .respSw = .ok (.statusWord s.respSw.1 s.respSw.2) ∧ readReg s .respRaw = .ok (.bytes s.respRaw) ∧
    readReg s .respTlv = .ok (.records s.respTlv) ∧ readReg s .respTlvDiag = .ok (.diag (diagCode s.respTlvDiag))) ∧
  (∀ s : State, s.cmdValid = true → readReg s .cmd = .ok (.command s.cmd)) ∧
  (∀ s : State, s.dsValid = true → readReg s .dsStatus = .ok (.status (statusKind s.dsStatus) (statusLen s.dsStatus))) ∧
  (∀ s : State, s.dtValid = true →
    readReg s .dtTlv = .ok (.records s.dtTlv) ∧ readReg s .dtDiag = .ok (.diag (diagCode s.dtDiag))) ∧
  ∀ s : State, readReg s .tx = .ok (.bytes s.tx) ∧ readReg s .cmdValid = .ok (.bit s.cmdValid) ∧
    readReg s .respValid = .ok (.bit s.respValid) ∧ readReg s .dsValid = .ok (.bit s.dsValid) ∧
    readReg s .dtValid = .ok (.bit s.dtValid)

/-! ## Whole-machine rules -/

/-- The invariant holds after reset. -/
def Obligations.ResetSatisfiesTheInvariant : Prop := Inv State.reset

/-- Every step keeps the invariant. -/
def Obligations.StepKeepsTheInvariant : Prop := ∀ s t : State, Inv s → step s = .next t → Inv t

/-- No step is refused, and under the invariant a step stops only at a read that R37 forbids. -/
def Obligations.StepStopsOnlyAtForbiddenReads : Prop :=
  (∀ (s : State) (r : Refusal), step s ≠ .refused r) ∧
  ∀ (s : State) (f : Fault), Inv s → step s = .fault f →
    ∃ r, f = .invalidRead r ∧ holdsValue s r = false ∧ Stimulus.read r ∈ s.agenda

/-- R38, R272: no step changes the configuration. -/
def Obligations.ConfigurationIsNeverWritten : Prop := ∀ s t : State, step s = .next t → t.cfg = s.cfg

/-- R24: `DIN_LEN` and `DIN` change only by the Requester driving them. -/
def Obligations.OnlyTheRequesterWritesDin : Prop :=
  ∀ s t : State, step s = .next t →
    (t.dinLen = s.dinLen ∧ t.din = s.din) ∨
    (accepts s = false ∧ Stimulus.driveDin t.dinLen t.din ∈ s.agenda)

/-- R24: two states that differ only in the bytes of `DIN` at index `DIN_LEN` and above run every request alike. -/
def Obligations.BytesAboveDinLenAreNotRead : Prop :=
  ∀ (i : Instr) (s t : State) (b : Vector Byte 255),
    b.toList.take s.dinLen.toNat = s.din.toList.take s.dinLen.toNat → exec i s = .next t →
    exec i { s with din := b } = .next { t with din := b }

/-- R40: each valid bit but `RESP_VALID` is cleared only by a reset; `RESP_VALID` is cleared only by a reset or an
accepted EXCHANGE. -/
def Obligations.ValidBitsAreClearedOnlyByReset : Prop :=
  ∀ s t : State, step s = .next t →
    ((s.cmdValid = true ∧ t.cmdValid = false) ∨ (s.dsValid = true ∧ t.dsValid = false) ∨
      (s.dtValid = true ∧ t.dtValid = false) → accepts s = false ∧ Stimulus.reset ∈ s.agenda) ∧
    (s.respValid = true ∧ t.respValid = false →
      (accepts s = true ∧ decode s.req = .ok .exchange) ∨ (accepts s = false ∧ Stimulus.reset ∈ s.agenda))

/-- R27, R220, R221, R224, R240: a protocol step changes neither `CMD` nor the registers of the other requests. It changes
`ERR` only when it ends the exchange, and then keeps all six Response registers; a step that does not end the exchange
keeps them too; and any step that does not keep them surfaces a Response: it ends a pending exchange in `Done` with
`RESP_VALID = 1` and leaves `ERR`. -/
def Obligations.ProtocolStepsKeepOtherRegisters : Prop :=
  ∀ (s t : State) (a : Answer), deliver a s = .next t →
    t.cmd = s.cmd ∧ t.cmdValid = s.cmdValid ∧ t.dsValid = s.dsValid ∧ t.dsStatus = s.dsStatus ∧ t.dtValid = s.dtValid ∧
    t.dtTlv = s.dtTlv ∧ t.dtDiag = s.dtDiag ∧ t.dinLen = s.dinLen ∧ t.din = s.din ∧ t.req = s.req ∧ t.reqValid = s.reqValid ∧
    t.cfg = s.cfg ∧ t.agenda = s.agenda ∧ (t.err ≠ s.err → s.fsm ≠ .done ∧ t.fsm = .done ∧ sameResponse s t) ∧
    (t.fsm ≠ .done → sameResponse s t) ∧
    (¬ sameResponse s t → s.fsm ≠ .done ∧ t.fsm = .done ∧ t.respValid = true ∧ t.err = s.err)

/-- R240: every accepted request, legal or not, overwrites `ERR`: what it held before has no effect. -/
def Obligations.AcceptedRequestOverwritesErr : Prop :=
  ∀ (s : State) (e : ErrCode), accepts s = true → step { s with err := e } = step s

/-- R55, R214: bytes go to the Transport only by an accepted EXCHANGE, which sends `CMD`, or by the continuation of a
pending `Sent`; and then they are in `TX` and an answer is owed. -/
def Obligations.TransmissionsComeOnlyFromExchanges : Prop :=
  ∀ s t : State, step s = .next t →
    t.transmitted = s.transmitted ∨
    (t.transmitted = t.tx :: s.transmitted ∧ t.fsm ≠ .done ∧
      ((accepts s = true ∧ decode s.req = .ok .exchange ∧ t.tx = serialize s.cmd) ∨
       (accepts s = false ∧ s.fsm = .sent)))

/-- R37, R39: what stands in `CMD` while `CMD_VALID = 0` reaches no other register, so the value the model gives it at
reset (log 5) can be any. -/
def Obligations.UnreadableCommandHasNoEffect : Prop :=
  ∀ (i : Instr) (s t : State) (c : Command), s.cmdValid = false → exec i s = .next t →
    exec i { s with cmd := c } = .next { t with cmd := if t.cmdValid then t.cmd else c }

/-! ## Assembler -/

/-- R79: a line with a `#` operand of at most 255 bytes loads exactly its bytes and presents the word of its request; a
line without one presents the word only. R79 says that an operand must be at most 255 bytes long; that the assembler
refuses a longer one is the model's choice (log 15). -/
def Obligations.AssembledLineLoadsItsOperand : Prop :=
  ∀ (l : Line) (i : Instr) (o : Option (List Byte)), lineParts l = (i, o) →
    (o = none → assemble l = .ok [.present (encode i)]) ∧
    (∀ b, o = some b → b.length ≤ 255 → ∃ n d, assemble l = .ok [.driveDin n d, .present (encode i)] ∧
      ∀ s : State, dinOperand { s with dinLen := n, din := d } = b) ∧
    (∀ b, o = some b → 255 < b.length → assemble l = .error .operandTooLong)

/-- R80: every pseudo-instruction is its builder line and then EXCHANGE, and that line is a builder's. R81: what each
text line maps to; `pin_unblock` is refused. -/
def Obligations.PseudoInstructionsBuildThenExchange : Prop :=
  ((∀ b, expandPseudo (.selectApplication b) = [.select b, .exchange]) ∧
    (∀ t, expandPseudo (.getDataOp t) = [.getData t, .exchange]) ∧
    (∀ s t b, expandPseudo (.putDataOp s t b) = [.putData s t b, .exchange]) ∧
    (∀ r f, expandPseudo (.readRecordOp r f) = [.readRecord r f, .exchange]) ∧
    (∀ b, expandPseudo (.verifyOp b) = [.verify b, .exchange]) ∧
    expandPseudo .getProcessingOptionsOp = [.getProcessingOptions, .exchange] ∧
    (∀ t b, expandPseudo (.generateAcOp t b) = [.generateAc t b, .exchange]) ∧
    (∀ b, expandPseudo (.externalAuthenticateOp b) = [.externalAuthenticate b, .exchange]) ∧
    (∀ b, expandPseudo (.unblockPinOp b) = [.resetPinTryCounter b, .exchange]) ∧
    (∀ b, expandPseudo (.applicationBlockOp b) = [.applicationBlock b, .exchange]) ∧
    ∀ b, expandPseudo (.applicationUnblockOp b) = [.applicationUnblock b, .exchange]) ∧
  (∀ p : Pseudo, ∃ l sh, expandPseudo p = [l, .exchange] ∧ builtShape (lineParts l).1 = some sh) ∧
  (∀ b, expandText (.select b) = .ok (.selectApplication b)) ∧
  expandText .getProcessingOptions = .ok .getProcessingOptionsOp ∧
  (∀ r f, expandText (.readRecord r f) = .ok (.readRecordOp r f)) ∧
  (∀ t b, expandText (.generateAc t (some b)) = .ok (.generateAcOp t b)) ∧
  (∀ t, expandText (.generateAc t none) = .ok (.generateAcOp t [])) ∧
  (∀ b : Byte, expandText (.getData (.one b)) = .ok (.getDataOp (BitVec.ofNat 16 b.toNat))) ∧
  (∀ t : Half, expandText (.getData (.two t)) = .ok (.getDataOp t)) ∧
  (∀ (tag : TagId) (v : List Byte), expandText (.putData tag v) = .ok (.putDataOp false (tagCode tag) v)) ∧
  expandText .pinUnblock = .error .pinUnblockHasNoMac
end

