-- ==== Sys2Proof/Laws/Decode.lean ====
section
/-! SUPPORT. The fields and the formats of a word written out of its four bytes. -/

namespace Sys2Proof

theorem wordOfBytes_toNat (a b c d : Byte) :
    (wordOfBytes a b c d).toNat = a.toNat * 2 ^ 24 + b.toNat * 2 ^ 16 + c.toNat * 2 ^ 8 + d.toNat := by
  have := a.isLt; have := b.isLt; have := c.isLt; have := d.isLt
  simp only [wordOfBytes, BitVec.toNat_append]
  rw [← Nat.shiftLeft_add_eq_or_of_lt d.isLt, ← Nat.shiftLeft_add_eq_or_of_lt c.isLt, ← Nat.shiftLeft_add_eq_or_of_lt b.isLt]
  simp only [Nat.shiftLeft_eq]
  omega

/-- A field of a bit vector as a number. -/
theorem extractLsb_toNat {n : Nat} (w : BitVec n) (h l : Nat) :
    (w.extractLsb h l).toNat = w.toNat / 2 ^ l % 2 ^ (h - l + 1) := by
  simp [BitVec.extractLsb_toNat, Nat.shiftRight_eq_div_pow]

/-- Every word is its four bytes. -/
theorem wordOfBytes_bytes (w : Word) :
    wordOfBytes (w.extractLsb 31 24) (w.extractLsb 23 16) (w.extractLsb 15 8) (w.extractLsb 7 0) = w := by
  apply BitVec.eq_of_toNat_eq
  have := w.isLt
  rw [wordOfBytes_toNat, extractLsb_toNat, extractLsb_toNat, extractLsb_toNat, extractLsb_toNat]; omega

@[simp] theorem opOf_wordOfBytes (a b c d : Byte) : opOf (wordOfBytes a b c d) = a := by
  have := a.isLt; have := b.isLt; have := c.isLt; have := d.isLt
  apply BitVec.eq_of_toNat_eq
  rw [opOf, extractLsb_toNat, wordOfBytes_toNat]; omega

@[simp] theorem byte2_wordOfBytes (a b c d : Byte) : (wordOfBytes a b c d).extractLsb 23 16 = b := by
  have := a.isLt; have := b.isLt; have := c.isLt; have := d.isLt
  apply BitVec.eq_of_toNat_eq
  rw [extractLsb_toNat, wordOfBytes_toNat]; omega

@[simp] theorem byte1_wordOfBytes (a b c d : Byte) : (wordOfBytes a b c d).extractLsb 15 8 = c := by
  have := a.isLt; have := b.isLt; have := c.isLt; have := d.isLt
  apply BitVec.eq_of_toNat_eq
  rw [extractLsb_toNat, wordOfBytes_toNat]; omega

@[simp] theorem byte0_wordOfBytes (a b c d : Byte) : (wordOfBytes a b c d).extractLsb 7 0 = d := by
  have := a.isLt; have := b.isLt; have := c.isLt; have := d.isLt
  apply BitVec.eq_of_toNat_eq
  rw [extractLsb_toNat, wordOfBytes_toNat]; omega

/-- A 16-bit value written as its two bytes. -/
theorem half_bytes (t : Half) : (t.extractLsb 15 8 ++ t.extractLsb 7 0 : BitVec 16) = t := by
  have := t.isLt
  have h : (t.extractLsb 7 0).toNat < 2 ^ 8 := (t.extractLsb 7 0).isLt
  apply BitVec.eq_of_toNat_eq
  rw [BitVec.toNat_append, ← Nat.shiftLeft_add_eq_or_of_lt h, Nat.shiftLeft_eq]
  simp only [extractLsb_toNat]
  omega

theorem bits_eq_iff_toNat {n : Nat} (x y : BitVec n) : x = y ↔ x.toNat = y.toNat := BitVec.toNat_inj.symm

theorem formatN_wordOfBytes (a b c d : Byte) (i : Instr) :
    formatN (wordOfBytes a b c d) i = if b = 0#8 ∧ c = 0#8 ∧ d = 0#8 then .ok i else .error .reservedBits := by
  have := a.isLt; have := b.isLt; have := c.isLt; have := d.isLt
  have h : (wordOfBytes a b c d).extractLsb 23 0 = 0#24 ↔ b = 0#8 ∧ c = 0#8 ∧ d = 0#8 := by
    rw [bits_eq_iff_toNat, extractLsb_toNat, wordOfBytes_toNat, bits_eq_iff_toNat b, bits_eq_iff_toNat c, bits_eq_iff_toNat d]
    simp; omega
  simp only [formatN, h]

theorem formatL_wordOfBytes (a b c d : Byte) (mk : Byte → Instr) :
    formatL (wordOfBytes a b c d) mk = if b = 0#8 ∧ c = 0#8 then .ok (mk d) else .error .reservedBits := by
  have := a.isLt; have := b.isLt; have := c.isLt; have := d.isLt
  have h : (wordOfBytes a b c d).extractLsb 23 8 = 0#16 ↔ b = 0#8 ∧ c = 0#8 := by
    rw [bits_eq_iff_toNat, extractLsb_toNat, wordOfBytes_toNat, bits_eq_iff_toNat b, bits_eq_iff_toNat c]
    simp; omega
  simp only [formatL, h, byte0_wordOfBytes]

theorem formatBytes_wordOfBytes (a b c d : Byte) (mk : Byte → Byte → Instr) :
    formatBytes (wordOfBytes a b c d) mk = if b = 0#8 then .ok (mk c d) else .error .reservedBits := by
  have h : (wordOfBytes a b c d).extractLsb 23 16 = 0#8 ↔ b = 0#8 := by rw [byte2_wordOfBytes]
  simp only [formatBytes, h, byte1_wordOfBytes, byte0_wordOfBytes]

/-- The 16-bit operand of formats T and TS, from its bytes. -/
theorem tag_wordOfBytes (a b c d : Byte) : (wordOfBytes a b c d).extractLsb 15 0 = (c ++ d : BitVec 16) := by
  have := a.isLt; have := b.isLt; have := c.isLt; have := d.isLt
  apply BitVec.eq_of_toNat_eq
  rw [extractLsb_toNat, wordOfBytes_toNat, BitVec.toNat_append, ← Nat.shiftLeft_add_eq_or_of_lt d.isLt, Nat.shiftLeft_eq]
  omega

theorem formatT_wordOfBytes (a b c d : Byte) (mk : Half → Instr) :
    formatT (wordOfBytes a b c d) mk = if b = 0#8 then .ok (mk (c ++ d : BitVec 16)) else .error .reservedBits := by
  have h : (wordOfBytes a b c d).extractLsb 23 16 = 0#8 ↔ b = 0#8 := by rw [byte2_wordOfBytes]
  simp only [formatT, h, tag_wordOfBytes]

theorem formatTS_wordOfBytes (a b c d : Byte) (mk : Bool → Half → Instr) :
    formatTS (wordOfBytes a b c d) mk =
      if b = 0#8 then .ok (mk false (c ++ d : BitVec 16)) else if b = 1#8 then .ok (mk true (c ++ d : BitVec 16))
      else .error .reservedBits := by
  have := a.isLt; have := b.isLt; have := c.isLt; have := d.isLt
  have h : (wordOfBytes a b c d).extractLsb 23 17 = 0#7 ↔ b = 0#8 ∨ b = 1#8 := by
    rw [bits_eq_iff_toNat, extractLsb_toNat, wordOfBytes_toNat, bits_eq_iff_toNat b, bits_eq_iff_toNat b]
    simp; omega
  have hs : (wordOfBytes a b c d).getLsbD 16 = b.getLsbD 0 := by
    rw [← byte2_wordOfBytes a b c d, BitVec.getLsbD_extractLsb]
    simp
  simp only [formatTS, h, tag_wordOfBytes, hs]
  by_cases h0 : b = 0#8
  · subst h0; simp
  · by_cases h1 : b = 1#8
    · subst h1; simp
    · simp [h0, h1]

theorem formatA_wordOfBytes (a b c d : Byte) (mk : CryptogramType → Instr) :
    formatA (wordOfBytes a b c d) mk =
      if b.toNat < 4 ∧ c = 0#8 ∧ d = 0#8 then
        match typeOfCode (b.extractLsb 1 0) with
        | some t => .ok (mk t)
        | none => .error .reservedType
      else .error .reservedBits := by
  have := a.isLt; have := b.isLt; have := c.isLt; have := d.isLt
  have h : ((wordOfBytes a b c d).extractLsb 23 18 = 0#6 ∧ (wordOfBytes a b c d).extractLsb 15 0 = 0#16) ↔
      (b.toNat < 4 ∧ c = 0#8 ∧ d = 0#8) := by
    rw [bits_eq_iff_toNat, extractLsb_toNat, wordOfBytes_toNat, bits_eq_iff_toNat _ (0#16), extractLsb_toNat,
      wordOfBytes_toNat, bits_eq_iff_toNat c, bits_eq_iff_toNat d]
    simp; omega
  have ht : (wordOfBytes a b c d).extractLsb 17 16 = b.extractLsb 1 0 := by
    apply BitVec.eq_of_toNat_eq
    rw [extractLsb_toNat, wordOfBytes_toNat, extractLsb_toNat]; omega
  rw [formatA, ht]
  exact if_congr h rfl rfl

end Sys2Proof
end

