-- ==== Sys2Proof/Laws/Ops.lean ====
section
/-! SUPPORT. What the shared operations can do: byte utilities, serialisation, reads, and the answers the
protocol accepts. -/

namespace Sys2Proof.Machine

open Sys2Proof

theorem hi_toNat (v : Half) : (hi v).toNat = v.toNat / 256 := by
  have := v.isLt
  rw [hi, extractLsb_toNat]; omega

theorem lo_toNat (v : Half) : (lo v).toNat = v.toNat % 256 := by
  rw [lo, extractLsb_toNat]; simp

theorem combine_toNat (a b : Byte) : (combine a b).toNat = 256 * a.toNat + b.toNat := by
  have ha := a.isLt; have hb := b.isLt
  have h : (a.zeroExtend 16 <<< 8).toNat = a.toNat <<< 8 := by
    simp only [BitVec.toNat_shiftLeft, BitVec.truncate_eq_setWidth, BitVec.toNat_setWidth, Nat.shiftLeft_eq]
    omega
  have h' : (b.zeroExtend 16).toNat = b.toNat := by
    simp only [BitVec.truncate_eq_setWidth, BitVec.toNat_setWidth]
    omega
  rw [combine, BitVec.toNat_or, h, h', ← Nat.shiftLeft_add_eq_or_of_lt hb, Nat.shiftLeft_eq]
  omega

theorem dinOperand_length (s : State) : (dinOperand s).length = s.dinLen.toNat := by
  have := s.dinLen.isLt
  simp [dinOperand]; omega

/-- Lc of a data operand is `DIN_LEN` itself. -/
theorem dinOperand_lc (s : State) : BitVec.ofNat 8 (dinOperand s).length = s.dinLen := by
  simp [dinOperand_length]

theorem dinOperand_dinOf (s : State) (b : List Byte) (h : b.length ≤ 255) :
    dinOperand { s with dinLen := BitVec.ofNat 8 b.length, din := dinOf b } = b := by
  apply List.ext_getElem
  · simp [dinOperand]; omega
  · intro i h1 h2
    simp [dinOperand, dinOf, List.getElem_take, h2]

theorem serialize_dataCommand (name : Op) (h : Header) (d : List Byte) :
    serialize (dataCommand name h d) = [h.cla, h.ins, h.p1, h.p2] ++ [BitVec.ofNat 8 d.length] ++ d := by
  simp [serialize, dataCommand, optByte]

theorem serialize_withLength (c : Command) (n : Byte) : serialize (withLength c n) = [c.cla, c.ins, c.p1, c.p2, n] := rfl

theorem serialize_cmdGetResponse (c : Config) (n : Byte) : serialize (cmdGetResponse c n) =
    [c.hdrGetResponse.cla, c.hdrGetResponse.ins, c.hdrGetResponse.p1, c.hdrGetResponse.p2, n] := rfl

theorem commandOk_dataCommand (name : Op) (h : Header) (d : List Byte) (hd : d.length ≤ 255) :
    commandOk (dataCommand name h d) := by
  intro d' hd'
  obtain rfl : d = d' := by simpa [dataCommand] using hd'
  exact ⟨hd, rfl⟩

/-- A Command without data satisfies R26. -/
theorem commandOk_of_no_data (c : Command) (h : c.data = none) : commandOk c := by
  intro d hd; simp [h] at hd

/-- A reply of two bytes and more splits into its payload and its status word, and no other reply splits. -/
theorem splitReply_append (p : List Byte) (sw1 sw2 : Byte) : splitReply (p ++ [sw1, sw2]) = some (sw1, sw2, p) := by
  simp [splitReply]

theorem splitReply_short (r : List Byte) (h : r.length < 2) : splitReply r = none := by
  match r, h with
  | [], _ => rfl
  | [_], _ => rfl

/-- A list of two bytes and more ends in two bytes. -/
theorem exists_last_two (r : List Byte) (h : 2 ≤ r.length) : ∃ p a b, r = p ++ [a, b] := by
  have hd : (r.drop (r.length - 2)).length = 2 := by simp; omega
  obtain ⟨a, b, hab⟩ := List.length_eq_two.mp hd
  exact ⟨r.take (r.length - 2), a, b, by rw [← hab, List.take_append_drop]⟩

/-- What `acceptAnswer` can accept: a reply within the limit, split at its last two bytes. -/
theorem acceptAnswer_ok {c : Config} {a : Answer} {sw1 sw2 : Byte} {p : List Byte}
    (h : acceptAnswer c a = .ok (sw1, sw2, p)) : a = .ok (p ++ [sw1, sw2]) ∧ p.length + 2 ≤ c.rxMax := by
  cases a with
  | transportError => simp [acceptAnswer] at h
  | ok r =>
    by_cases h2 : r.length < 2
    · simp [acceptAnswer, splitReply_short r h2] at h
    · obtain ⟨p', a, b, rfl⟩ := exists_last_two r (by omega)
      simp only [acceptAnswer, splitReply_append] at h
      split at h
      · cases h
      · rename_i hlen
        simp only [Except.ok.injEq, Prod.mk.injEq] at h
        obtain ⟨rfl, rfl, rfl⟩ := h
        simp at hlen
        exact ⟨rfl, by omega⟩

theorem guarded_error_iff (valid : Bool) (r : Reg) (v : RegValue) (f : Fault) :
    guarded valid r v = .error f ↔ valid = false ∧ f = .invalidRead r := by
  cases valid <;> simp [guarded]
  exact eq_comm

/-- A read is a fault exactly where the register holds no value. -/
theorem readReg_error_iff (s : State) (r : Reg) (f : Fault) :
    readReg s r = .error f ↔ holdsValue s r = false ∧ f = .invalidRead r := by
  cases r <;> simp [readReg, holdsValue, guarded_error_iff]

end Sys2Proof.Machine
end

