-- ==== Sys2Proof/Laws/PerInstr.lean ====
section
/-! SUPPORT. For each request: its word lies in its row of spec/opcode_table.json (mask and match). -/

namespace Sys2Proof.Laws.EncodingRow

open Sys2Proof

/-- The mask and the match of a request's row of the opcode table. -/
def row : Instr → Word × Word
  | .select => (0xFFFFFFFF#32, 0x01000000#32)
  | .getResponse _ => (0xFFFFFF00#32, 0x02000000#32)
  | .getData _ => (0xFFFF0000#32, 0x03000000#32)
  | .putData _ _ => (0xFFFE0000#32, 0x04000000#32)
  | .getProcessingOptions => (0xFFFFFFFF#32, 0x05000000#32)
  | .readRecord _ _ => (0xFFFF0000#32, 0x06000000#32)
  | .externalAuthenticate => (0xFFFFFFFF#32, 0x07000000#32)
  | .generateAc _ => (0xFFFCFFFF#32, 0x08000000#32)
  | .resetPinTryCounter => (0xFFFFFFFF#32, 0x09000000#32)
  | .offlineChangePin => (0xFFFFFFFF#32, 0x0A000000#32)
  | .verify => (0xFFFFFFFF#32, 0x0B000000#32)
  | .applicationBlock => (0xFFFFFFFF#32, 0x0C000000#32)
  | .applicationUnblock => (0xFFFFFFFF#32, 0x0D000000#32)
  | .withLength _ => (0xFFFFFF00#32, 0x0E000000#32)
  | .exchange => (0xFFFFFFFF#32, 0x10000000#32)
  | .decodeStatus _ _ => (0xFFFF0000#32, 0x11000000#32)
  | .decodeTlv => (0xFFFFFFFF#32, 0x12000000#32)

/-- The request's word satisfies its row. -/
def Statement (i : Instr) : Prop := encode i &&& (row i).1 = (row i).2

/-- A conjunction of concatenations is taken part by part. -/
theorem and_append {m n : Nat} (a a' : BitVec m) (b b' : BitVec n) : (a ++ b) &&& (a' ++ b') = (a &&& a') ++ (b &&& b') := by
  ext i hi
  simp only [BitVec.getElem_and, BitVec.getElem_append]
  split <;> simp

/-- Masking a word of four bytes masks each byte. -/
theorem and_wordOfBytes (a b c d a' b' c' d' : Byte) :
    wordOfBytes a b c d &&& wordOfBytes a' b' c' d' = wordOfBytes (a &&& a') (b &&& b') (c &&& c') (d &&& d') := by
  refine (and_append (a ++ b ++ c) (a' ++ b' ++ c') d d').trans ?_
  rw [and_append, and_append]
  rfl

theorem select : Statement .select := rfl

theorem getResponse (len : Byte) : Statement (.getResponse len) := by
  have hm : (0xFFFFFF00#32 : Word) = wordOfBytes 0xFF#8 0xFF#8 0xFF#8 0x00#8 := by decide
  rw [Statement, row, encode, hm, and_wordOfBytes]
  simp [wordOfBytes]

theorem getData (tag : Half) : Statement (.getData tag) := by
  have hm : (0xFFFF0000#32 : Word) = wordOfBytes 0xFF#8 0xFF#8 0x00#8 0x00#8 := by decide
  rw [Statement, row, encode, hm, and_wordOfBytes]
  simp [wordOfBytes]

theorem putData (secure : Bool) (tag : Half) : Statement (.putData secure tag) := by
  have hm : (0xFFFE0000#32 : Word) = wordOfBytes 0xFF#8 0xFE#8 0x00#8 0x00#8 := by decide
  cases secure <;> rw [Statement, row, encode, hm, and_wordOfBytes]
  all_goals simp [wordOfBytes]

theorem getProcessingOptions : Statement .getProcessingOptions := rfl

theorem readRecord (record sfi : Byte) : Statement (.readRecord record sfi) := by
  have hm : (0xFFFF0000#32 : Word) = wordOfBytes 0xFF#8 0xFF#8 0x00#8 0x00#8 := by decide
  rw [Statement, row, encode, hm, and_wordOfBytes]
  simp [wordOfBytes]

theorem externalAuthenticate : Statement .externalAuthenticate := rfl

theorem generateAc (type : CryptogramType) : Statement (.generateAc type) := by cases type <;> rfl

theorem resetPinTryCounter : Statement .resetPinTryCounter := rfl

theorem offlineChangePin : Statement .offlineChangePin := rfl

theorem verify : Statement .verify := rfl

theorem applicationBlock : Statement .applicationBlock := rfl

theorem applicationUnblock : Statement .applicationUnblock := rfl

theorem withLength (len : Byte) : Statement (.withLength len) := by
  have hm : (0xFFFFFF00#32 : Word) = wordOfBytes 0xFF#8 0xFF#8 0xFF#8 0x00#8 := by decide
  rw [Statement, row, encode, hm, and_wordOfBytes]
  simp [wordOfBytes]

theorem exchange : Statement .exchange := rfl

theorem decodeStatus (sw1 sw2 : Byte) : Statement (.decodeStatus sw1 sw2) := by
  have hm : (0xFFFF0000#32 : Word) = wordOfBytes 0xFF#8 0xFF#8 0x00#8 0x00#8 := by decide
  rw [Statement, row, encode, hm, and_wordOfBytes]
  simp [wordOfBytes]

theorem decodeTlv : Statement .decodeTlv := rfl

end Sys2Proof.Laws.EncodingRow
end

