-- ==== Sys2Proof/Laws/State.lean ====
section
/-! SUPPORT. One lemma per field per shared update of the state, each true by rfl. -/

namespace Sys2Proof.Machine

/-! The fields after `raise`. -/

@[simp] theorem raise_cfg (e : ErrCode) (s : State) : (raise e s).cfg = s.cfg := rfl
@[simp] theorem raise_req (e : ErrCode) (s : State) : (raise e s).req = s.req := rfl
@[simp] theorem raise_reqValid (e : ErrCode) (s : State) : (raise e s).reqValid = s.reqValid := rfl
@[simp] theorem raise_dinLen (e : ErrCode) (s : State) : (raise e s).dinLen = s.dinLen := rfl
@[simp] theorem raise_din (e : ErrCode) (s : State) : (raise e s).din = s.din := rfl
@[simp] theorem raise_cmdValid (e : ErrCode) (s : State) : (raise e s).cmdValid = s.cmdValid := rfl
@[simp] theorem raise_cmd (e : ErrCode) (s : State) : (raise e s).cmd = s.cmd := rfl
@[simp] theorem raise_tx (e : ErrCode) (s : State) : (raise e s).tx = s.tx := rfl
@[simp] theorem raise_fsm (e : ErrCode) (s : State) : (raise e s).fsm = s.fsm := rfl
@[simp] theorem raise_respValid (e : ErrCode) (s : State) : (raise e s).respValid = s.respValid := rfl
@[simp] theorem raise_respStatus (e : ErrCode) (s : State) : (raise e s).respStatus = s.respStatus := rfl
@[simp] theorem raise_respSw (e : ErrCode) (s : State) : (raise e s).respSw = s.respSw := rfl
@[simp] theorem raise_respRaw (e : ErrCode) (s : State) : (raise e s).respRaw = s.respRaw := rfl
@[simp] theorem raise_respTlv (e : ErrCode) (s : State) : (raise e s).respTlv = s.respTlv := rfl
@[simp] theorem raise_respTlvDiag (e : ErrCode) (s : State) : (raise e s).respTlvDiag = s.respTlvDiag := rfl
@[simp] theorem raise_err (e : ErrCode) (s : State) : (raise e s).err = e := rfl
@[simp] theorem raise_dsValid (e : ErrCode) (s : State) : (raise e s).dsValid = s.dsValid := rfl
@[simp] theorem raise_dsStatus (e : ErrCode) (s : State) : (raise e s).dsStatus = s.dsStatus := rfl
@[simp] theorem raise_dtValid (e : ErrCode) (s : State) : (raise e s).dtValid = s.dtValid := rfl
@[simp] theorem raise_dtTlv (e : ErrCode) (s : State) : (raise e s).dtTlv = s.dtTlv := rfl
@[simp] theorem raise_dtDiag (e : ErrCode) (s : State) : (raise e s).dtDiag = s.dtDiag := rfl
@[simp] theorem raise_agenda (e : ErrCode) (s : State) : (raise e s).agenda = s.agenda := rfl
@[simp] theorem raise_transmitted (e : ErrCode) (s : State) : (raise e s).transmitted = s.transmitted := rfl

/-! The fields after `build`. -/

@[simp] theorem build_cfg (c : Command) (s : State) : (build c s).cfg = s.cfg := rfl
@[simp] theorem build_req (c : Command) (s : State) : (build c s).req = s.req := rfl
@[simp] theorem build_reqValid (c : Command) (s : State) : (build c s).reqValid = s.reqValid := rfl
@[simp] theorem build_dinLen (c : Command) (s : State) : (build c s).dinLen = s.dinLen := rfl
@[simp] theorem build_din (c : Command) (s : State) : (build c s).din = s.din := rfl
@[simp] theorem build_cmdValid (c : Command) (s : State) : (build c s).cmdValid = true := rfl
@[simp] theorem build_cmd (c : Command) (s : State) : (build c s).cmd = c := rfl
@[simp] theorem build_tx (c : Command) (s : State) : (build c s).tx = s.tx := rfl
@[simp] theorem build_fsm (c : Command) (s : State) : (build c s).fsm = s.fsm := rfl
@[simp] theorem build_respValid (c : Command) (s : State) : (build c s).respValid = s.respValid := rfl
@[simp] theorem build_respStatus (c : Command) (s : State) : (build c s).respStatus = s.respStatus := rfl
@[simp] theorem build_respSw (c : Command) (s : State) : (build c s).respSw = s.respSw := rfl
@[simp] theorem build_respRaw (c : Command) (s : State) : (build c s).respRaw = s.respRaw := rfl
@[simp] theorem build_respTlv (c : Command) (s : State) : (build c s).respTlv = s.respTlv := rfl
@[simp] theorem build_respTlvDiag (c : Command) (s : State) : (build c s).respTlvDiag = s.respTlvDiag := rfl
@[simp] theorem build_err (c : Command) (s : State) : (build c s).err = .none := rfl
@[simp] theorem build_dsValid (c : Command) (s : State) : (build c s).dsValid = s.dsValid := rfl
@[simp] theorem build_dsStatus (c : Command) (s : State) : (build c s).dsStatus = s.dsStatus := rfl
@[simp] theorem build_dtValid (c : Command) (s : State) : (build c s).dtValid = s.dtValid := rfl
@[simp] theorem build_dtTlv (c : Command) (s : State) : (build c s).dtTlv = s.dtTlv := rfl
@[simp] theorem build_dtDiag (c : Command) (s : State) : (build c s).dtDiag = s.dtDiag := rfl
@[simp] theorem build_agenda (c : Command) (s : State) : (build c s).agenda = s.agenda := rfl
@[simp] theorem build_transmitted (c : Command) (s : State) : (build c s).transmitted = s.transmitted := rfl

/-! The fields after `transmit`. -/

@[simp] theorem transmit_cfg (b : List Byte) (f : FsmState) (s : State) : (transmit b f s).cfg = s.cfg := rfl
@[simp] theorem transmit_req (b : List Byte) (f : FsmState) (s : State) : (transmit b f s).req = s.req := rfl
@[simp] theorem transmit_reqValid (b : List Byte) (f : FsmState) (s : State) : (transmit b f s).reqValid = s.reqValid := rfl
@[simp] theorem transmit_dinLen (b : List Byte) (f : FsmState) (s : State) : (transmit b f s).dinLen = s.dinLen := rfl
@[simp] theorem transmit_din (b : List Byte) (f : FsmState) (s : State) : (transmit b f s).din = s.din := rfl
@[simp] theorem transmit_cmdValid (b : List Byte) (f : FsmState) (s : State) : (transmit b f s).cmdValid = s.cmdValid := rfl
@[simp] theorem transmit_cmd (b : List Byte) (f : FsmState) (s : State) : (transmit b f s).cmd = s.cmd := rfl
@[simp] theorem transmit_tx (b : List Byte) (f : FsmState) (s : State) : (transmit b f s).tx = b := rfl
@[simp] theorem transmit_fsm (b : List Byte) (f : FsmState) (s : State) : (transmit b f s).fsm = f := rfl
@[simp] theorem transmit_respValid (b : List Byte) (f : FsmState) (s : State) : (transmit b f s).respValid = s.respValid := rfl
@[simp] theorem transmit_respStatus (b : List Byte) (f : FsmState) (s : State) : (transmit b f s).respStatus = s.respStatus := rfl
@[simp] theorem transmit_respSw (b : List Byte) (f : FsmState) (s : State) : (transmit b f s).respSw = s.respSw := rfl
@[simp] theorem transmit_respRaw (b : List Byte) (f : FsmState) (s : State) : (transmit b f s).respRaw = s.respRaw := rfl
@[simp] theorem transmit_respTlv (b : List Byte) (f : FsmState) (s : State) : (transmit b f s).respTlv = s.respTlv := rfl
@[simp] theorem transmit_respTlvDiag (b : List Byte) (f : FsmState) (s : State) : (transmit b f s).respTlvDiag = s.respTlvDiag := rfl
@[simp] theorem transmit_err (b : List Byte) (f : FsmState) (s : State) : (transmit b f s).err = s.err := rfl
@[simp] theorem transmit_dsValid (b : List Byte) (f : FsmState) (s : State) : (transmit b f s).dsValid = s.dsValid := rfl
@[simp] theorem transmit_dsStatus (b : List Byte) (f : FsmState) (s : State) : (transmit b f s).dsStatus = s.dsStatus := rfl
@[simp] theorem transmit_dtValid (b : List Byte) (f : FsmState) (s : State) : (transmit b f s).dtValid = s.dtValid := rfl
@[simp] theorem transmit_dtTlv (b : List Byte) (f : FsmState) (s : State) : (transmit b f s).dtTlv = s.dtTlv := rfl
@[simp] theorem transmit_dtDiag (b : List Byte) (f : FsmState) (s : State) : (transmit b f s).dtDiag = s.dtDiag := rfl
@[simp] theorem transmit_agenda (b : List Byte) (f : FsmState) (s : State) : (transmit b f s).agenda = s.agenda := rfl
@[simp] theorem transmit_transmitted (b : List Byte) (f : FsmState) (s : State) : (transmit b f s).transmitted = b :: s.transmitted := rfl

/-! The fields after `lowerStrobe`. -/

@[simp] theorem lowerStrobe_cfg (s : State) : (lowerStrobe s).cfg = s.cfg := rfl
@[simp] theorem lowerStrobe_req (s : State) : (lowerStrobe s).req = s.req := rfl
@[simp] theorem lowerStrobe_reqValid (s : State) : (lowerStrobe s).reqValid = false := rfl
@[simp] theorem lowerStrobe_dinLen (s : State) : (lowerStrobe s).dinLen = s.dinLen := rfl
@[simp] theorem lowerStrobe_din (s : State) : (lowerStrobe s).din = s.din := rfl
@[simp] theorem lowerStrobe_cmdValid (s : State) : (lowerStrobe s).cmdValid = s.cmdValid := rfl
@[simp] theorem lowerStrobe_cmd (s : State) : (lowerStrobe s).cmd = s.cmd := rfl
@[simp] theorem lowerStrobe_tx (s : State) : (lowerStrobe s).tx = s.tx := rfl
@[simp] theorem lowerStrobe_fsm (s : State) : (lowerStrobe s).fsm = s.fsm := rfl
@[simp] theorem lowerStrobe_respValid (s : State) : (lowerStrobe s).respValid = s.respValid := rfl
@[simp] theorem lowerStrobe_respStatus (s : State) : (lowerStrobe s).respStatus = s.respStatus := rfl
@[simp] theorem lowerStrobe_respSw (s : State) : (lowerStrobe s).respSw = s.respSw := rfl
@[simp] theorem lowerStrobe_respRaw (s : State) : (lowerStrobe s).respRaw = s.respRaw := rfl
@[simp] theorem lowerStrobe_respTlv (s : State) : (lowerStrobe s).respTlv = s.respTlv := rfl
@[simp] theorem lowerStrobe_respTlvDiag (s : State) : (lowerStrobe s).respTlvDiag = s.respTlvDiag := rfl
@[simp] theorem lowerStrobe_err (s : State) : (lowerStrobe s).err = s.err := rfl
@[simp] theorem lowerStrobe_dsValid (s : State) : (lowerStrobe s).dsValid = s.dsValid := rfl
@[simp] theorem lowerStrobe_dsStatus (s : State) : (lowerStrobe s).dsStatus = s.dsStatus := rfl
@[simp] theorem lowerStrobe_dtValid (s : State) : (lowerStrobe s).dtValid = s.dtValid := rfl
@[simp] theorem lowerStrobe_dtTlv (s : State) : (lowerStrobe s).dtTlv = s.dtTlv := rfl
@[simp] theorem lowerStrobe_dtDiag (s : State) : (lowerStrobe s).dtDiag = s.dtDiag := rfl
@[simp] theorem lowerStrobe_agenda (s : State) : (lowerStrobe s).agenda = s.agenda := rfl
@[simp] theorem lowerStrobe_transmitted (s : State) : (lowerStrobe s).transmitted = s.transmitted := rfl

/-! The fields after `placeRequest`. -/

@[simp] theorem placeRequest_cfg (s : State) (w : Word) : (placeRequest s w).cfg = s.cfg := rfl
@[simp] theorem placeRequest_req (s : State) (w : Word) : (placeRequest s w).req = w := rfl
@[simp] theorem placeRequest_reqValid (s : State) (w : Word) : (placeRequest s w).reqValid = true := rfl
@[simp] theorem placeRequest_dinLen (s : State) (w : Word) : (placeRequest s w).dinLen = s.dinLen := rfl
@[simp] theorem placeRequest_din (s : State) (w : Word) : (placeRequest s w).din = s.din := rfl
@[simp] theorem placeRequest_cmdValid (s : State) (w : Word) : (placeRequest s w).cmdValid = s.cmdValid := rfl
@[simp] theorem placeRequest_cmd (s : State) (w : Word) : (placeRequest s w).cmd = s.cmd := rfl
@[simp] theorem placeRequest_tx (s : State) (w : Word) : (placeRequest s w).tx = s.tx := rfl
@[simp] theorem placeRequest_fsm (s : State) (w : Word) : (placeRequest s w).fsm = .done := rfl
@[simp] theorem placeRequest_respValid (s : State) (w : Word) : (placeRequest s w).respValid = s.respValid := rfl
@[simp] theorem placeRequest_respStatus (s : State) (w : Word) : (placeRequest s w).respStatus = s.respStatus := rfl
@[simp] theorem placeRequest_respSw (s : State) (w : Word) : (placeRequest s w).respSw = s.respSw := rfl
@[simp] theorem placeRequest_respRaw (s : State) (w : Word) : (placeRequest s w).respRaw = s.respRaw := rfl
@[simp] theorem placeRequest_respTlv (s : State) (w : Word) : (placeRequest s w).respTlv = s.respTlv := rfl
@[simp] theorem placeRequest_respTlvDiag (s : State) (w : Word) : (placeRequest s w).respTlvDiag = s.respTlvDiag := rfl
@[simp] theorem placeRequest_err (s : State) (w : Word) : (placeRequest s w).err = s.err := rfl
@[simp] theorem placeRequest_dsValid (s : State) (w : Word) : (placeRequest s w).dsValid = s.dsValid := rfl
@[simp] theorem placeRequest_dsStatus (s : State) (w : Word) : (placeRequest s w).dsStatus = s.dsStatus := rfl
@[simp] theorem placeRequest_dtValid (s : State) (w : Word) : (placeRequest s w).dtValid = s.dtValid := rfl
@[simp] theorem placeRequest_dtTlv (s : State) (w : Word) : (placeRequest s w).dtTlv = s.dtTlv := rfl
@[simp] theorem placeRequest_dtDiag (s : State) (w : Word) : (placeRequest s w).dtDiag = s.dtDiag := rfl
@[simp] theorem placeRequest_agenda (s : State) (w : Word) : (placeRequest s w).agenda = s.agenda := rfl
@[simp] theorem placeRequest_transmitted (s : State) (w : Word) : (placeRequest s w).transmitted = s.transmitted := rfl

/-! The fields after `recordStatus`. -/

@[simp] theorem recordStatus_cfg (st : Status) (s : State) : (recordStatus st s).cfg = s.cfg := rfl
@[simp] theorem recordStatus_req (st : Status) (s : State) : (recordStatus st s).req = s.req := rfl
@[simp] theorem recordStatus_reqValid (st : Status) (s : State) : (recordStatus st s).reqValid = s.reqValid := rfl
@[simp] theorem recordStatus_dinLen (st : Status) (s : State) : (recordStatus st s).dinLen = s.dinLen := rfl
@[simp] theorem recordStatus_din (st : Status) (s : State) : (recordStatus st s).din = s.din := rfl
@[simp] theorem recordStatus_cmdValid (st : Status) (s : State) : (recordStatus st s).cmdValid = s.cmdValid := rfl
@[simp] theorem recordStatus_cmd (st : Status) (s : State) : (recordStatus st s).cmd = s.cmd := rfl
@[simp] theorem recordStatus_tx (st : Status) (s : State) : (recordStatus st s).tx = s.tx := rfl
@[simp] theorem recordStatus_fsm (st : Status) (s : State) : (recordStatus st s).fsm = s.fsm := rfl
@[simp] theorem recordStatus_respValid (st : Status) (s : State) : (recordStatus st s).respValid = s.respValid := rfl
@[simp] theorem recordStatus_respStatus (st : Status) (s : State) : (recordStatus st s).respStatus = s.respStatus := rfl
@[simp] theorem recordStatus_respSw (st : Status) (s : State) : (recordStatus st s).respSw = s.respSw := rfl
@[simp] theorem recordStatus_respRaw (st : Status) (s : State) : (recordStatus st s).respRaw = s.respRaw := rfl
@[simp] theorem recordStatus_respTlv (st : Status) (s : State) : (recordStatus st s).respTlv = s.respTlv := rfl
@[simp] theorem recordStatus_respTlvDiag (st : Status) (s : State) : (recordStatus st s).respTlvDiag = s.respTlvDiag := rfl
@[simp] theorem recordStatus_err (st : Status) (s : State) : (recordStatus st s).err = .none := rfl
@[simp] theorem recordStatus_dsValid (st : Status) (s : State) : (recordStatus st s).dsValid = true := rfl
@[simp] theorem recordStatus_dsStatus (st : Status) (s : State) : (recordStatus st s).dsStatus = st := rfl
@[simp] theorem recordStatus_dtValid (st : Status) (s : State) : (recordStatus st s).dtValid = s.dtValid := rfl
@[simp] theorem recordStatus_dtTlv (st : Status) (s : State) : (recordStatus st s).dtTlv = s.dtTlv := rfl
@[simp] theorem recordStatus_dtDiag (st : Status) (s : State) : (recordStatus st s).dtDiag = s.dtDiag := rfl
@[simp] theorem recordStatus_agenda (st : Status) (s : State) : (recordStatus st s).agenda = s.agenda := rfl
@[simp] theorem recordStatus_transmitted (st : Status) (s : State) : (recordStatus st s).transmitted = s.transmitted := rfl

/-! The fields after `recordTlv`. -/

@[simp] theorem recordTlv_cfg (rs : List TlvRecord) (d : TlvDiag) (s : State) : (recordTlv rs d s).cfg = s.cfg := rfl
@[simp] theorem recordTlv_req (rs : List TlvRecord) (d : TlvDiag) (s : State) : (recordTlv rs d s).req = s.req := rfl
@[simp] theorem recordTlv_reqValid (rs : List TlvRecord) (d : TlvDiag) (s : State) : (recordTlv rs d s).reqValid = s.reqValid := rfl
@[simp] theorem recordTlv_dinLen (rs : List TlvRecord) (d : TlvDiag) (s : State) : (recordTlv rs d s).dinLen = s.dinLen := rfl
@[simp] theorem recordTlv_din (rs : List TlvRecord) (d : TlvDiag) (s : State) : (recordTlv rs d s).din = s.din := rfl
@[simp] theorem recordTlv_cmdValid (rs : List TlvRecord) (d : TlvDiag) (s : State) : (recordTlv rs d s).cmdValid = s.cmdValid := rfl
@[simp] theorem recordTlv_cmd (rs : List TlvRecord) (d : TlvDiag) (s : State) : (recordTlv rs d s).cmd = s.cmd := rfl
@[simp] theorem recordTlv_tx (rs : List TlvRecord) (d : TlvDiag) (s : State) : (recordTlv rs d s).tx = s.tx := rfl
@[simp] theorem recordTlv_fsm (rs : List TlvRecord) (d : TlvDiag) (s : State) : (recordTlv rs d s).fsm = s.fsm := rfl
@[simp] theorem recordTlv_respValid (rs : List TlvRecord) (d : TlvDiag) (s : State) : (recordTlv rs d s).respValid = s.respValid := rfl
@[simp] theorem recordTlv_respStatus (rs : List TlvRecord) (d : TlvDiag) (s : State) : (recordTlv rs d s).respStatus = s.respStatus := rfl
@[simp] theorem recordTlv_respSw (rs : List TlvRecord) (d : TlvDiag) (s : State) : (recordTlv rs d s).respSw = s.respSw := rfl
@[simp] theorem recordTlv_respRaw (rs : List TlvRecord) (d : TlvDiag) (s : State) : (recordTlv rs d s).respRaw = s.respRaw := rfl
@[simp] theorem recordTlv_respTlv (rs : List TlvRecord) (d : TlvDiag) (s : State) : (recordTlv rs d s).respTlv = s.respTlv := rfl
@[simp] theorem recordTlv_respTlvDiag (rs : List TlvRecord) (d : TlvDiag) (s : State) : (recordTlv rs d s).respTlvDiag = s.respTlvDiag := rfl
@[simp] theorem recordTlv_err (rs : List TlvRecord) (d : TlvDiag) (s : State) : (recordTlv rs d s).err = .none := rfl
@[simp] theorem recordTlv_dsValid (rs : List TlvRecord) (d : TlvDiag) (s : State) : (recordTlv rs d s).dsValid = s.dsValid := rfl
@[simp] theorem recordTlv_dsStatus (rs : List TlvRecord) (d : TlvDiag) (s : State) : (recordTlv rs d s).dsStatus = s.dsStatus := rfl
@[simp] theorem recordTlv_dtValid (rs : List TlvRecord) (d : TlvDiag) (s : State) : (recordTlv rs d s).dtValid = true := rfl
@[simp] theorem recordTlv_dtTlv (rs : List TlvRecord) (d : TlvDiag) (s : State) : (recordTlv rs d s).dtTlv = rs := rfl
@[simp] theorem recordTlv_dtDiag (rs : List TlvRecord) (d : TlvDiag) (s : State) : (recordTlv rs d s).dtDiag = d := rfl
@[simp] theorem recordTlv_agenda (rs : List TlvRecord) (d : TlvDiag) (s : State) : (recordTlv rs d s).agenda = s.agenda := rfl
@[simp] theorem recordTlv_transmitted (rs : List TlvRecord) (d : TlvDiag) (s : State) : (recordTlv rs d s).transmitted = s.transmitted := rfl

/-! The fields after `openExchange`. -/

@[simp] theorem openExchange_cfg (s : State) : (openExchange s).cfg = s.cfg := rfl
@[simp] theorem openExchange_req (s : State) : (openExchange s).req = s.req := rfl
@[simp] theorem openExchange_reqValid (s : State) : (openExchange s).reqValid = s.reqValid := rfl
@[simp] theorem openExchange_dinLen (s : State) : (openExchange s).dinLen = s.dinLen := rfl
@[simp] theorem openExchange_din (s : State) : (openExchange s).din = s.din := rfl
@[simp] theorem openExchange_cmdValid (s : State) : (openExchange s).cmdValid = s.cmdValid := rfl
@[simp] theorem openExchange_cmd (s : State) : (openExchange s).cmd = s.cmd := rfl
@[simp] theorem openExchange_tx (s : State) : (openExchange s).tx = s.tx := rfl
@[simp] theorem openExchange_fsm (s : State) : (openExchange s).fsm = s.fsm := rfl
@[simp] theorem openExchange_respValid (s : State) : (openExchange s).respValid = false := rfl
@[simp] theorem openExchange_respStatus (s : State) : (openExchange s).respStatus = s.respStatus := rfl
@[simp] theorem openExchange_respSw (s : State) : (openExchange s).respSw = s.respSw := rfl
@[simp] theorem openExchange_respRaw (s : State) : (openExchange s).respRaw = s.respRaw := rfl
@[simp] theorem openExchange_respTlv (s : State) : (openExchange s).respTlv = s.respTlv := rfl
@[simp] theorem openExchange_respTlvDiag (s : State) : (openExchange s).respTlvDiag = s.respTlvDiag := rfl
@[simp] theorem openExchange_err (s : State) : (openExchange s).err = .none := rfl
@[simp] theorem openExchange_dsValid (s : State) : (openExchange s).dsValid = s.dsValid := rfl
@[simp] theorem openExchange_dsStatus (s : State) : (openExchange s).dsStatus = s.dsStatus := rfl
@[simp] theorem openExchange_dtValid (s : State) : (openExchange s).dtValid = s.dtValid := rfl
@[simp] theorem openExchange_dtTlv (s : State) : (openExchange s).dtTlv = s.dtTlv := rfl
@[simp] theorem openExchange_dtDiag (s : State) : (openExchange s).dtDiag = s.dtDiag := rfl
@[simp] theorem openExchange_agenda (s : State) : (openExchange s).agenda = s.agenda := rfl
@[simp] theorem openExchange_transmitted (s : State) : (openExchange s).transmitted = s.transmitted := rfl

/-! The fields after `surface`. -/

@[simp] theorem surface_cfg (r : Response) (s : State) : (surface r s).cfg = s.cfg := rfl
@[simp] theorem surface_req (r : Response) (s : State) : (surface r s).req = s.req := rfl
@[simp] theorem surface_reqValid (r : Response) (s : State) : (surface r s).reqValid = s.reqValid := rfl
@[simp] theorem surface_dinLen (r : Response) (s : State) : (surface r s).dinLen = s.dinLen := rfl
@[simp] theorem surface_din (r : Response) (s : State) : (surface r s).din = s.din := rfl
@[simp] theorem surface_cmdValid (r : Response) (s : State) : (surface r s).cmdValid = s.cmdValid := rfl
@[simp] theorem surface_cmd (r : Response) (s : State) : (surface r s).cmd = s.cmd := rfl
@[simp] theorem surface_tx (r : Response) (s : State) : (surface r s).tx = s.tx := rfl
@[simp] theorem surface_fsm (r : Response) (s : State) : (surface r s).fsm = .done := rfl
@[simp] theorem surface_respValid (r : Response) (s : State) : (surface r s).respValid = true := rfl
@[simp] theorem surface_respStatus (r : Response) (s : State) : (surface r s).respStatus = r.status := rfl
@[simp] theorem surface_respSw (r : Response) (s : State) : (surface r s).respSw = r.sw := rfl
@[simp] theorem surface_respRaw (r : Response) (s : State) : (surface r s).respRaw = r.raw := rfl
@[simp] theorem surface_respTlv (r : Response) (s : State) : (surface r s).respTlv = r.tlv := rfl
@[simp] theorem surface_respTlvDiag (r : Response) (s : State) : (surface r s).respTlvDiag = r.diag := rfl
@[simp] theorem surface_err (r : Response) (s : State) : (surface r s).err = s.err := rfl
@[simp] theorem surface_dsValid (r : Response) (s : State) : (surface r s).dsValid = s.dsValid := rfl
@[simp] theorem surface_dsStatus (r : Response) (s : State) : (surface r s).dsStatus = s.dsStatus := rfl
@[simp] theorem surface_dtValid (r : Response) (s : State) : (surface r s).dtValid = s.dtValid := rfl
@[simp] theorem surface_dtTlv (r : Response) (s : State) : (surface r s).dtTlv = s.dtTlv := rfl
@[simp] theorem surface_dtDiag (r : Response) (s : State) : (surface r s).dtDiag = s.dtDiag := rfl
@[simp] theorem surface_agenda (r : Response) (s : State) : (surface r s).agenda = s.agenda := rfl
@[simp] theorem surface_transmitted (r : Response) (s : State) : (surface r s).transmitted = s.transmitted := rfl

/-! The fields after `failExchange`. -/

@[simp] theorem failExchange_cfg (e : ErrCode) (s : State) : (failExchange e s).cfg = s.cfg := rfl
@[simp] theorem failExchange_req (e : ErrCode) (s : State) : (failExchange e s).req = s.req := rfl
@[simp] theorem failExchange_reqValid (e : ErrCode) (s : State) : (failExchange e s).reqValid = s.reqValid := rfl
@[simp] theorem failExchange_dinLen (e : ErrCode) (s : State) : (failExchange e s).dinLen = s.dinLen := rfl
@[simp] theorem failExchange_din (e : ErrCode) (s : State) : (failExchange e s).din = s.din := rfl
@[simp] theorem failExchange_cmdValid (e : ErrCode) (s : State) : (failExchange e s).cmdValid = s.cmdValid := rfl
@[simp] theorem failExchange_cmd (e : ErrCode) (s : State) : (failExchange e s).cmd = s.cmd := rfl
@[simp] theorem failExchange_tx (e : ErrCode) (s : State) : (failExchange e s).tx = s.tx := rfl
@[simp] theorem failExchange_fsm (e : ErrCode) (s : State) : (failExchange e s).fsm = .done := rfl
@[simp] theorem failExchange_respValid (e : ErrCode) (s : State) : (failExchange e s).respValid = s.respValid := rfl
@[simp] theorem failExchange_respStatus (e : ErrCode) (s : State) : (failExchange e s).respStatus = s.respStatus := rfl
@[simp] theorem failExchange_respSw (e : ErrCode) (s : State) : (failExchange e s).respSw = s.respSw := rfl
@[simp] theorem failExchange_respRaw (e : ErrCode) (s : State) : (failExchange e s).respRaw = s.respRaw := rfl
@[simp] theorem failExchange_respTlv (e : ErrCode) (s : State) : (failExchange e s).respTlv = s.respTlv := rfl
@[simp] theorem failExchange_respTlvDiag (e : ErrCode) (s : State) : (failExchange e s).respTlvDiag = s.respTlvDiag := rfl
@[simp] theorem failExchange_err (e : ErrCode) (s : State) : (failExchange e s).err = e := rfl
@[simp] theorem failExchange_dsValid (e : ErrCode) (s : State) : (failExchange e s).dsValid = s.dsValid := rfl
@[simp] theorem failExchange_dsStatus (e : ErrCode) (s : State) : (failExchange e s).dsStatus = s.dsStatus := rfl
@[simp] theorem failExchange_dtValid (e : ErrCode) (s : State) : (failExchange e s).dtValid = s.dtValid := rfl
@[simp] theorem failExchange_dtTlv (e : ErrCode) (s : State) : (failExchange e s).dtTlv = s.dtTlv := rfl
@[simp] theorem failExchange_dtDiag (e : ErrCode) (s : State) : (failExchange e s).dtDiag = s.dtDiag := rfl
@[simp] theorem failExchange_agenda (e : ErrCode) (s : State) : (failExchange e s).agenda = s.agenda := rfl
@[simp] theorem failExchange_transmitted (e : ErrCode) (s : State) : (failExchange e s).transmitted = s.transmitted := rfl

/-! The fields after `applyReset`. -/

@[simp] theorem applyReset_cfg (s : State) : (applyReset s).cfg = s.cfg := rfl
@[simp] theorem applyReset_req (s : State) : (applyReset s).req = s.req := rfl
@[simp] theorem applyReset_reqValid (s : State) : (applyReset s).reqValid = s.reqValid := rfl
@[simp] theorem applyReset_dinLen (s : State) : (applyReset s).dinLen = s.dinLen := rfl
@[simp] theorem applyReset_din (s : State) : (applyReset s).din = s.din := rfl
@[simp] theorem applyReset_cmdValid (s : State) : (applyReset s).cmdValid = false := rfl
@[simp] theorem applyReset_cmd (s : State) : (applyReset s).cmd = blankCommand := rfl
@[simp] theorem applyReset_tx (s : State) : (applyReset s).tx = [] := rfl
@[simp] theorem applyReset_fsm (s : State) : (applyReset s).fsm = .done := rfl
@[simp] theorem applyReset_respValid (s : State) : (applyReset s).respValid = false := rfl
@[simp] theorem applyReset_respStatus (s : State) : (applyReset s).respStatus = .ok := rfl
@[simp] theorem applyReset_respSw (s : State) : (applyReset s).respSw = (0, 0) := rfl
@[simp] theorem applyReset_respRaw (s : State) : (applyReset s).respRaw = [] := rfl
@[simp] theorem applyReset_respTlv (s : State) : (applyReset s).respTlv = [] := rfl
@[simp] theorem applyReset_respTlvDiag (s : State) : (applyReset s).respTlvDiag = .decoded := rfl
@[simp] theorem applyReset_err (s : State) : (applyReset s).err = .none := rfl
@[simp] theorem applyReset_dsValid (s : State) : (applyReset s).dsValid = false := rfl
@[simp] theorem applyReset_dsStatus (s : State) : (applyReset s).dsStatus = .ok := rfl
@[simp] theorem applyReset_dtValid (s : State) : (applyReset s).dtValid = false := rfl
@[simp] theorem applyReset_dtTlv (s : State) : (applyReset s).dtTlv = [] := rfl
@[simp] theorem applyReset_dtDiag (s : State) : (applyReset s).dtDiag = .decoded := rfl
@[simp] theorem applyReset_agenda (s : State) : (applyReset s).agenda = s.agenda := rfl
@[simp] theorem applyReset_transmitted (s : State) : (applyReset s).transmitted = s.transmitted := rfl

end Sys2Proof.Machine
end

