-- ==== Sys2Proof/Laws/Tlv.lean ====
section
/-! SUPPORT. What one record header can do, in both directions, and one turn of the decoder's loop. -/

namespace Sys2Proof.Machine

open Sys2Proof

theorem tagBytes_length (t : TagId) : (tagBytes t).length = tagWidth t := by cases t <;> rfl

theorem recordBytes_length (r : TlvRecord) : (recordBytes r).length = tagWidth r.tag + 1 + r.value.length := by
  simp [recordBytes, tagBytes_length]; omega

theorem tagWidth_pos (t : TagId) : 1 ≤ tagWidth t := by cases t <;> simp [tagWidth]

theorem combine_hi_lo (v : Half) : combine (hi v) (lo v) = v := by
  apply BitVec.eq_of_toNat_eq
  rw [combine_toNat, hi_toNat, lo_toNat]; omega

theorem hi_combine (a b : Byte) : hi (combine a b) = a := by
  have := b.isLt
  apply BitVec.eq_of_toNat_eq
  rw [hi_toNat, combine_toNat]; omega

theorem lo_combine (a b : Byte) : lo (combine a b) = b := by
  have := b.isLt
  apply BitVec.eq_of_toNat_eq
  rw [lo_toNat, combine_toNat]; omega

/-- What `resolveTag` can answer: a catalogued tag whose bytes begin the frame. -/
theorem resolveTag_some {c : Config} {x y : Byte} {t : TagId} {k : TagClass} (h : resolveTag c x y = some (t, k)) :
    tagClass c t = some k ∧ ∀ tl, x :: y :: tl = tagBytes t ++ (x :: y :: tl).drop (tagWidth t) := by
  unfold resolveTag at h
  split at h
  · rename_i hk
    obtain ⟨rfl, rfl⟩ : TagId.one x = t ∧ _ = k := by simpa using h
    exact ⟨hk, fun tl => rfl⟩
  · split at h
    · rename_i hk
      obtain ⟨rfl, rfl⟩ : TagId.two (combine x y) = t ∧ _ = k := by simpa using h
      exact ⟨hk, fun tl => by simp [tagBytes, tagWidth, hi_combine, lo_combine]⟩
    · cases h

/-- What `readPiece` can accept: the frame is the bytes of a record of a catalogued tag, then the rest. -/
theorem readPiece_ok {c : Config} {f : List Byte} {p : TlvPiece} (h : readPiece c f = .ok p) :
    f = recordBytes p.record ++ p.rest ∧ tagClass c p.record.tag = some p.cls ∧
      p.record.value.length = p.record.length.toNat := by
  match f, h with
  | x :: y :: tl, h =>
    simp only [readPiece] at h
    split at h
    · cases h
    · rename_i t k ht
      obtain ⟨hk, hb⟩ := resolveTag_some ht
      have hb := hb tl
      generalize hd : (x :: y :: tl).drop (tagWidth t) = body at h hb
      match body, h with
      | len :: rest, h =>
        simp only [readBody] at h
        split at h
        · cases h
        · rename_i hlen
          obtain rfl := (Except.ok.inj h).symm
          refine ⟨?_, hk, ?_⟩
          · rw [hb]; simp [recordBytes]
          · simp; omega

/-- A record of a catalogued tag, written at the start of a frame, is read back (R171, R183). -/
theorem readPiece_recordBytes {c : Config} (hc : c.catalogueOk = true) {r : TlvRecord} {k : TagClass}
    (hk : tagClass c r.tag = some k) (hl : r.value.length = r.length.toNat) (rest : List Byte) :
    readPiece c (recordBytes r ++ rest) = .ok ⟨k, r, rest⟩ := by
  obtain ⟨tag, len, value⟩ := r
  have hbody : readBody tag k (len :: (value ++ rest)) = .ok ⟨k, ⟨tag, len, value⟩, rest⟩ := by
    simp only at hl
    simp [readBody, ← hl]
  cases tag with
  | one x =>
    cases hv : value ++ rest with
    | nil =>
      simp only [recordBytes, tagBytes, List.cons_append, List.nil_append, hv, readPiece, resolveTag, hk]
      rw [hv] at hbody; exact hbody
    | cons y ys =>
      simp only [recordBytes, tagBytes, List.cons_append, List.nil_append, hv, readPiece, resolveTag, hk]
      rw [hv] at hbody; exact hbody
  | two v =>
    have hn : tagClass c (.one (hi v)) = none := by
      have hmem : ∃ e ∈ c.tags2, e.1 = v := by
        have : (c.tags2.lookup v).isSome := by simp only [tagClass] at hk; simp [hk]
        rw [List.lookup_isSome_iff] at this
        obtain ⟨e, he, hv⟩ := this
        exact ⟨e, he, (beq_iff_eq.mp hv).symm⟩
      obtain ⟨e, he, rfl⟩ := hmem
      have := List.all_eq_true.mp hc e he
      simpa [tagClass, hi] using this
    simp only [recordBytes, tagBytes, List.cons_append, List.nil_append, readPiece, resolveTag, hn, combine_hi_lo, hk]
    exact hbody

/-- One turn of the loop on a non-empty frame (R180). -/
theorem tlvLoop_piece (c : Config) (n : Nat) (f : List Byte) (stack : List (List Byte)) (out : List TlvRecord) (hf : f ≠ []) :
    tlvLoop c (n + 1) (f :: stack) out =
      match readPiece c f with
      | .error e => .error e
      | .ok p =>
        match p.cls with
        | .primitive => tlvLoop c n (p.rest :: stack) (out ++ [p.record])
        | .constructed => tlvLoop c n (descend c.siblings p stack) out := by
  match f, hf with
  | b :: f, _ => rfl

/-- One turn of the loop on an exhausted frame (R180). -/
theorem tlvLoop_exhausted (c : Config) (n : Nat) (stack : List (List Byte)) (out : List TlvRecord) :
    tlvLoop c (n + 1) ([] :: stack) out = tlvLoop c n stack out := rfl

@[simp] theorem tlvLoop_done (c : Config) (n : Nat) (out : List TlvRecord) : tlvLoop c n [] out = .ok out := by
  cases n <;> rfl

end Sys2Proof.Machine
end

