-- ==== Sys2Proof/Laws/Step.lean ====
section
/-! SUPPORT. What a request, a delivery, another agent's action and a step can do, said once. -/

namespace Sys2Proof.Machine

open Sys2Proof

theorem dinOperand_length_le (s : State) : (dinOperand s).length ≤ 255 := by
  have := s.dinLen.isLt
  rw [dinOperand_length]; omega

/-- The Command a builder request makes, by shape. -/
theorem exec_builder (i : Instr) (sh : Shape) (s : State) (h : builtShape i = some sh) :
    ∃ c, exec i s = .next (build c s) ∧ commandOk c ∧ shapeOf c = some sh := by
  have hd := dinOperand_length_le s
  cases i with
  | select => exact ⟨_, rfl, commandOk_dataCommand _ _ _ hd, h⟩
  | getResponse n => exact ⟨_, rfl, commandOk_of_no_data _ rfl, h⟩
  | getData tag => exact ⟨_, rfl, commandOk_of_no_data _ rfl, h⟩
  | putData secure tag => exact ⟨_, rfl, commandOk_dataCommand _ _ _ hd, h⟩
  | getProcessingOptions => exact ⟨_, rfl, commandOk_dataCommand _ _ _ (by simp [gpoBytes]), h⟩
  | readRecord record sfi => exact ⟨_, rfl, commandOk_of_no_data _ rfl, h⟩
  | externalAuthenticate => exact ⟨_, rfl, commandOk_dataCommand _ _ _ hd, h⟩
  | generateAc t => exact ⟨_, rfl, commandOk_dataCommand _ _ _ hd, h⟩
  | resetPinTryCounter => exact ⟨_, rfl, commandOk_dataCommand _ _ _ hd, h⟩
  | offlineChangePin => exact ⟨_, rfl, commandOk_dataCommand _ _ _ hd, h⟩
  | verify => exact ⟨_, rfl, commandOk_dataCommand _ _ _ hd, h⟩
  | applicationBlock => exact ⟨_, rfl, commandOk_dataCommand _ _ _ hd, h⟩
  | applicationUnblock => exact ⟨_, rfl, commandOk_dataCommand _ _ _ hd, h⟩
  | withLength n => cases h
  | exchange => cases h
  | decodeStatus sw1 sw2 => cases h
  | decodeTlv => cases h

/-- Everything a request can do. -/
theorem exec_cases (i : Instr) (s : State) :
    (∃ sh c, builtShape i = some sh ∧ commandOk c ∧ exec i s = .next (build c s)) ∨
    (∃ n, i = .withLength n ∧ s.cmdValid = true ∧ exec i s = .next (build (withLength s.cmd n) s)) ∨
    (((∃ n, i = .withLength n) ∨ i = .exchange) ∧ s.cmdValid = false ∧ exec i s = .next (raise .noCommand s)) ∨
    (i = .exchange ∧ s.cmdValid = true ∧ exec i s = .next (transmit (serialize s.cmd) .sent (openExchange s))) ∨
    (∃ sw1 sw2, i = .decodeStatus sw1 sw2 ∧ exec i s = .next (recordStatus (decodeStatus sw1 sw2) s)) ∨
    (i = .decodeTlv ∧ exec i s = .next (recordTlv (tlvOutcome (tlvDecode s.cfg (dinOperand s))).1
      (tlvOutcome (tlvDecode s.cfg (dinOperand s))).2 s)) := by
  cases hb : builtShape i with
  | some sh =>
    obtain ⟨c, h1, h2, -⟩ := exec_builder i sh s hb
    exact .inl ⟨sh, c, rfl, h2, h1⟩
  | none =>
    cases i with
    | withLength n =>
      cases hv : s.cmdValid with
      | true => exact .inr (.inl ⟨n, rfl, rfl, by simp [exec, execWithLength, hv]⟩)
      | false => exact .inr (.inr (.inl ⟨.inl ⟨n, rfl⟩, rfl, by simp [exec, execWithLength, hv]⟩))
    | exchange =>
      cases hv : s.cmdValid with
      | true => exact .inr (.inr (.inr (.inl ⟨rfl, rfl, by simp [exec, execExchange, hv]⟩)))
      | false => exact .inr (.inr (.inl ⟨.inr rfl, rfl, by simp [exec, execExchange, hv]⟩))
    | decodeStatus sw1 sw2 => exact .inr (.inr (.inr (.inr (.inl ⟨sw1, sw2, rfl, rfl⟩))))
    | decodeTlv => exact .inr (.inr (.inr (.inr (.inr ⟨rfl, rfl⟩))))
    | _ => cases hb

/-- An accepted reply in `Sent`: one of the two continuations, a surfaced Response, or a `CMD` without a value. -/
theorem replyInSent_cases (sw1 sw2 : Byte) (p : List Byte) (s : State) :
    (∃ n, decodeStatus sw1 sw2 = .responseAvailable n ∧
      replyInSent sw1 sw2 p s = .next (transmit (serialize (cmdGetResponse s.cfg n)) .awaitingMore s)) ∨
    (∃ n, decodeStatus sw1 sw2 = .wrongLengthLe n ∧ s.cmdValid = true ∧
      replyInSent sw1 sw2 p s = .next (transmit (serialize (withLength s.cmd n)) .awaitingRetry s)) ∨
    (s.cmdValid = false ∧ replyInSent sw1 sw2 p s = .fault (.invalidRead .cmd)) ∨
    (isContinuation (decodeStatus sw1 sw2) = false ∧
      replyInSent sw1 sw2 p s = .next (surface (envelope s.cfg (decodeStatus sw1 sw2) (sw1, sw2) p) s)) := by
  cases hst : decodeStatus sw1 sw2 with
  | responseAvailable n => exact .inl ⟨n, rfl, by simp [replyInSent, hst]⟩
  | wrongLengthLe n =>
    cases hv : s.cmdValid with
    | true => exact .inr (.inl ⟨n, rfl, rfl, by simp [replyInSent, hst, retryWithLength, readCmd, hv]⟩)
    | false => exact .inr (.inr (.inl ⟨rfl, by simp [replyInSent, hst, retryWithLength, readCmd, hv]⟩))
  | _ => exact .inr (.inr (.inr ⟨rfl, by simp [replyInSent, hst]⟩))

/-- Everything a delivery can do. -/
theorem deliver_cases (a : Answer) (s : State) :
    (s.fsm = .done ∧ deliver a s = .next s) ∨
    (s.fsm ≠ .done ∧ ∃ e, acceptAnswer s.cfg a = .error e ∧ deliver a s = .next (failExchange e s)) ∨
    (s.fsm = .sent ∧ ∃ n, deliver a s = .next (transmit (serialize (cmdGetResponse s.cfg n)) .awaitingMore s)) ∨
    (s.fsm = .sent ∧ s.cmdValid = true ∧
      ∃ n, deliver a s = .next (transmit (serialize (withLength s.cmd n)) .awaitingRetry s)) ∨
    (s.fsm = .sent ∧ s.cmdValid = false ∧ deliver a s = .fault (.invalidRead .cmd)) ∨
    (s.fsm ≠ .done ∧ ∃ sw1 sw2 p, p.length + 2 ≤ s.cfg.rxMax ∧
      deliver a s = .next (surface (envelope s.cfg (decodeStatus sw1 sw2) (sw1, sw2) p) s)) := by
  by_cases hd : s.fsm = .done
  · exact .inl ⟨hd, by simp [deliver, reqReady, hd]⟩
  · cases ha : acceptAnswer s.cfg a with
    | error e => exact .inr (.inl ⟨hd, e, rfl, by simp [deliver, reqReady, hd, ha]⟩)
    | ok x =>
      obtain ⟨sw1, sw2, p⟩ := x
      have hlen := (acceptAnswer_ok ha).2
      have hdel : deliver a s = acceptedReply sw1 sw2 p s := by simp [deliver, reqReady, hd, ha]
      rw [hdel]
      cases hf : s.fsm with
      | done => exact absurd hf hd
      | sent =>
        have hr : acceptedReply sw1 sw2 p s = replyInSent sw1 sw2 p s := by simp [acceptedReply, hf]
        rw [hr]
        obtain ⟨n, -, h⟩ | ⟨n, -, hv, h⟩ | ⟨hv, h⟩ | ⟨-, h⟩ := replyInSent_cases sw1 sw2 p s
        · exact .inr (.inr (.inl ⟨rfl, n, h⟩))
        · exact .inr (.inr (.inr (.inl ⟨rfl, hv, n, h⟩)))
        · exact .inr (.inr (.inr (.inr (.inl ⟨rfl, hv, h⟩))))
        · exact .inr (.inr (.inr (.inr (.inr ⟨by simp, sw1, sw2, p, hlen, h⟩))))
      | awaitingMore =>
        exact .inr (.inr (.inr (.inr (.inr ⟨by simp, sw1, sw2, p, hlen, by simp [acceptedReply, hf, replyInContinuation]⟩))))
      | awaitingRetry =>
        exact .inr (.inr (.inr (.inr (.inr ⟨by simp, sw1, sw2, p, hlen, by simp [acceptedReply, hf, replyInContinuation]⟩))))

/-- What is taken while a transmission is pending was offered, and is no action the Requester waits with. -/
theorem takeWhileBusy_some {agenda : List Stimulus} : ∀ {w : Bool} {a : Stimulus} {rest : List Stimulus},
    takeWhileBusy w agenda = some (a, rest) → a ∈ agenda ∧ waitsWhilePending a = false := by
  induction agenda with
  | nil => intro w a rest h; cases h
  | cons b l ih =>
    intro w a rest h
    have skip : ∀ {w' : Bool}, ((takeWhileBusy w' l).map fun x => (x.1, b :: x.2)) = some (a, rest) →
        a ∈ b :: l ∧ waitsWhilePending a = false := by
      intro w' h'
      simp only [Option.map_eq_some_iff, Prod.mk.injEq, Prod.exists] at h'
      obtain ⟨x, y, hxy, rfl, -⟩ := h'
      exact ⟨.tail _ (ih hxy).1, (ih hxy).2⟩
    have take : waitsWhilePending b = false → some (b, l) = some (a, rest) → a ∈ b :: l ∧ waitsWhilePending a = false := by
      intro hb h'
      obtain ⟨rfl, -⟩ : b = a ∧ l = rest := by simpa using h'
      exact ⟨.head _, hb⟩
    cases b with
    | driveDin n d => exact skip h
    | present v => exact skip h
    | read r => cases w with
      | true => exact skip h
      | false => exact take rfl h
    | deliver x => exact take rfl h
    | lateAnswer x => exact take rfl h
    | reset => exact take rfl h

/-- If the Requester waits with everything that is offered, nothing is taken. -/
theorem takeWhileBusy_none {agenda : List Stimulus} (h : ∀ a ∈ agenda, waitsWhilePending a = true) :
    ∀ w, takeWhileBusy w agenda = none := by
  induction agenda with
  | nil => intro w; rfl
  | cons b l ih =>
    intro w
    have hl := ih (fun a ha => h a (.tail _ ha)) true
    have hb := h b (.head _)
    cases b with
    | driveDin n d => simp [takeWhileBusy, hl]
    | present v => simp [takeWhileBusy, hl]
    | _ => cases hb

/-- What is taken was offered; while a transmission is pending it is no action the Requester waits with. -/
theorem takeStimulus_some {ready : Bool} {agenda : List Stimulus} {a : Stimulus} {rest : List Stimulus}
    (h : takeStimulus ready agenda = some (a, rest)) :
    a ∈ agenda ∧ (ready = false → waitsWhilePending a = false) := by
  cases ready with
  | false => exact ⟨(takeWhileBusy_some h).1, fun _ => (takeWhileBusy_some h).2⟩
  | true =>
    cases agenda with
    | nil => cases h
    | cons b l =>
      obtain ⟨rfl, -⟩ : b = a ∧ l = rest := by simpa [takeStimulus] using h
      exact ⟨.head _, fun h => by cases h⟩

theorem accepts_iff (s : State) : accepts s = true ↔ s.reqValid = true ∧ s.fsm = .done := by
  simp [accepts, reqReady]

/-- Everything a step can do: accept a legal request, accept an illegal word, find nothing to do, or take another
agent's action. -/
theorem step_cases (s : State) :
    (accepts s = true ∧ ∃ i, decode s.req = .ok i ∧ step s = exec i (lowerStrobe s)) ∨
    (accepts s = true ∧ ∃ b, decode s.req = .error b ∧ step s = .next (raise .illegalRequest (lowerStrobe s))) ∨
    (accepts s = false ∧ step s = .next s) ∨
    (accepts s = false ∧ ∃ a rest, a ∈ s.agenda ∧ (s.fsm ≠ .done → waitsWhilePending a = false) ∧
      step s = respond a { s with agenda := rest }) := by
  cases ha : accepts s with
  | true =>
    cases hd : decode s.req with
    | ok i => exact .inl ⟨rfl, i, rfl, by simp [step, ha, acceptRequest, hd]⟩
    | error b => exact .inr (.inl ⟨rfl, b, rfl, by simp [step, ha, acceptRequest, hd]⟩)
  | false =>
    cases ht : takeStimulus (reqReady s) s.agenda with
    | none => exact .inr (.inr (.inl ⟨rfl, by simp [step, ha, outsideStep, ht]⟩))
    | some x =>
      obtain ⟨a, rest⟩ := x
      refine .inr (.inr (.inr ⟨rfl, a, rest, (takeStimulus_some ht).1, fun hf => ?_, by simp [step, ha, outsideStep, ht]⟩))
      exact (takeStimulus_some ht).2 (by simp [reqReady, hf])

/-- A step in which the head of the agenda is an action the Requester does not wait with. -/
theorem step_head (s : State) (a : Stimulus) (rest : List Stimulus) (ha : accepts s = false)
    (hw : s.fsm = .done ∨ waitsWhilePending a = false) (hag : s.agenda = a :: rest) :
    step s = respond a { s with agenda := rest } := by
  have ht : takeStimulus (reqReady s) s.agenda = some (a, rest) := by
    by_cases hf : s.fsm = .done
    · simp [takeStimulus, reqReady, hf, hag]
    · have hw := hw.resolve_left hf
      cases a with
      | driveDin n d => cases hw
      | present w => cases hw
      | read r => simp [takeStimulus, reqReady, hf, hag, takeWhileBusy]
      | deliver x => simp [takeStimulus, reqReady, hf, hag, takeWhileBusy]
      | lateAnswer x => simp [takeStimulus, reqReady, hf, hag, takeWhileBusy]
      | reset => simp [takeStimulus, reqReady, hf, hag, takeWhileBusy]
  simp [step, ha, outsideStep, ht]

end Sys2Proof.Machine
end

