-- ==== Sys2Proof/Tests/Slice0.lean ====
section
/-! SUPPORT. Tests, each about one step or one operation, with the expected value from the cited row of
95_test_vectors.md; and for every obligation with hypotheses a concrete input that meets them. -/

namespace Sys2Proof.Tests

open Sys2Proof Sys2Proof.Machine

/-- A field of the next state. -/
def field {α : Type} (f : State → α) : Result → Option α
  | .next s => some (f s)
  | .fault _ => none
  | .refused _ => none

/-- The wire bytes of `CMD`. -/
def wire (s : State) : List Byte := serialize s.cmd

/-- Reset, with a data operand loaded. -/
def loaded (bytes : List Byte) : State :=
  { State.reset with dinLen := BitVec.ofNat 8 bytes.length, din := dinOf bytes }

/-- The step that accepts the word `w` after the data operand is loaded. -/
def run (w : Nat) (bytes : List Byte) : Result := step ((loaded bytes).withFetchWord 32 w)

/-- Idle, with READ_RECORD 01 0C in `CMD` (V5.10). -/
def holding : State := { State.reset with cmd := cmdReadRecord defaultConfig 0x01 0x0C, cmdValid := true }

/-- The block in DISCARD mode. -/
def discardConfig : Config := { defaultConfig with siblings := .discard }

/-- READ_RECORD 01 0C has been transmitted and the other agents take these actions. -/
def sentWith (agenda : List Stimulus) : State :=
  { holding with tx := [0x00, 0xB2, 0x01, 0x0C], transmitted := [[0x00, 0xB2, 0x01, 0x0C]], fsm := .sent, agenda := agenda }

/-- The retry of READ_RECORD 01 0C has been transmitted. -/
def retriedWith (agenda : List Stimulus) : State :=
  { holding with
    tx := [0x00, 0xB2, 0x01, 0x0C, 0x2F], transmitted := [[0x00, 0xB2, 0x01, 0x0C, 0x2F], [0x00, 0xB2, 0x01, 0x0C]],
    fsm := .awaitingRetry, agenda := agenda }

/-- GET_RESPONSE 1A has been transmitted after READ_RECORD 01 0C. -/
def moreWith (agenda : List Stimulus) : State :=
  { holding with
    tx := [0x00, 0xC0, 0x00, 0x00, 0x1A], transmitted := [[0x00, 0xC0, 0x00, 0x00, 0x1A], [0x00, 0xB2, 0x01, 0x0C]],
    fsm := .awaitingMore, agenda := agenda }

/-! ## Well-formedness: an ill-formed term for each check -/

theorem test_unassigned_op_is_illegal : unassignedOp 0x0F000000#32 = true ∧ illegalWord 0x0F000000#32 = true := by decide

theorem test_reserved_bit_is_illegal : reservedBitSet 0x0200011A#32 = true ∧ illegalWord 0x0200011A#32 = true := by decide

theorem test_reserved_type_is_illegal : reservedType 0x08030000#32 = true ∧ illegalWord 0x08030000#32 = true := by decide

/-- V6.1 to V6.13. -/
theorem test_illegal_words :
    ([0x00000000#32, 0x0F000000#32, 0x13000000#32, 0xFF000000#32, 0x01000001#32, 0x0200011A#32, 0x03010000#32] ++
     [0x04020000#32, 0x08030000#32, 0x08010001#32, 0x10800000#32, 0x11016A82#32, 0x0601FFFF#32]).all illegalWord = true := by
  decide

/-- V6.14, V6.15. -/
theorem test_legal_words : illegalWord 0x0600FFFF#32 = false ∧ illegalWord 0x0401FFFF#32 = false := by decide

theorem test_config_shared_first_byte : Config.catalogueOk { defaultConfig with tags2 := [(0x8401, .primitive)] } = false := by
  decide

theorem test_config_without_source_tags : Config.sourceTagsOk { defaultConfig with tags1 := [(0x84, .primitive)] } = false := by
  decide

theorem test_config_equal_reference_control : Config.refControlOk { defaultConfig with rcTc := 0x80 } = false := by decide

theorem test_config_reply_limit_too_small : Config.rxMaxOk { defaultConfig with rxMax := 1 } = false := by decide

theorem test_default_config_is_well_formed : Config.wf defaultConfig = true := by decide

/-! ## Decoding: a word of each row, written out from R73 to R75, and V6 -/

/-- OP 01 | 24 zero bits. -/
theorem test_decode_select : decode 0b00000001_000000000000000000000000#32 = .ok .select := by decide

/-- OP 02 | 16 zero bits | LEN. -/
theorem test_decode_getResponse : decode 0b00000010_0000000000000000_00011010#32 = .ok (.getResponse 0x1A) := by decide

/-- OP 03 | 8 zero bits | TAG. -/
theorem test_decode_getData : decode 0b00000011_00000000_1001111100110110#32 = .ok (.getData 0x9F36) := by decide

/-- OP 04 | 7 zero bits | SEC | TAG. -/
theorem test_decode_putData :
    decode 0b00000100_0000000_1_0101111100101101#32 = .ok (.putData true 0x5F2D) ∧
    decode 0b00000100_0000000_0_0101111100101101#32 = .ok (.putData false 0x5F2D) := by decide

theorem test_decode_getProcessingOptions :
    decode 0b00000101_000000000000000000000000#32 = .ok .getProcessingOptions := by decide

/-- OP 06 | 8 zero bits | REC | SFI. -/
theorem test_decode_readRecord : decode 0b00000110_00000000_00000001_00001100#32 = .ok (.readRecord 0x01 0x0C) := by decide

theorem test_decode_externalAuthenticate :
    decode 0b00000111_000000000000000000000000#32 = .ok .externalAuthenticate := by decide

/-- OP 08 | 6 zero bits | TYPE | 16 zero bits. -/
theorem test_decode_generateAc :
    decode 0b00001000_000000_00_0000000000000000#32 = .ok (.generateAc .aac) ∧
    decode 0b00001000_000000_01_0000000000000000#32 = .ok (.generateAc .arqc) ∧
    decode 0b00001000_000000_10_0000000000000000#32 = .ok (.generateAc .tc) := by decide

theorem test_decode_resetPinTryCounter :
    decode 0b00001001_000000000000000000000000#32 = .ok .resetPinTryCounter := by decide

theorem test_decode_offlineChangePin : decode 0b00001010_000000000000000000000000#32 = .ok .offlineChangePin := by decide

theorem test_decode_verify : decode 0b00001011_000000000000000000000000#32 = .ok .verify := by decide

theorem test_decode_applicationBlock : decode 0b00001100_000000000000000000000000#32 = .ok .applicationBlock := by decide

theorem test_decode_applicationUnblock : decode 0b00001101_000000000000000000000000#32 = .ok .applicationUnblock := by decide

theorem test_decode_withLength : decode 0b00001110_0000000000000000_00101111#32 = .ok (.withLength 0x2F) := by decide

theorem test_decode_exchange : decode 0b00010000_000000000000000000000000#32 = .ok .exchange := by decide

/-- OP 11 | 8 zero bits | SW1 | SW2. -/
theorem test_decode_decodeStatus : decode 0b00010001_00000000_01101010_10000010#32 = .ok (.decodeStatus 0x6A 0x82) := by decide

theorem test_decode_decodeTlv : decode 0b00010010_000000000000000000000000#32 = .ok .decodeTlv := by decide

/-- V6.4, V6.11, V6.9: rejected by name. -/
theorem test_decode_rejects_by_name :
    decode 0xFF000000#32 = .error .unassignedOp ∧ decode 0x10800000#32 = .error .reservedBits ∧
    decode 0x08030000#32 = .error .reservedType := by decide

theorem test_decode_table_word :
    decodeTableWord 32 0x0600FFFF = some (.readRecord 0xFF 0xFF) ∧ decodeTableWord 32 0x13000000 = none := by decide

/-! ## Builder requests as steps: the wire bytes of section 5 -/

/-- V5.1. -/
theorem test_select : field wire (run 0x01000000 [0xA0, 0x00, 0x00, 0x00, 0x04, 0x10, 0x10]) =
    some [0x00, 0xA4, 0x04, 0x00, 0x07, 0xA0, 0x00, 0x00, 0x00, 0x04, 0x10, 0x10] := by decide +kernel

/-- V5.2. -/
theorem test_select_empty : field wire (run 0x01000000 []) = some [0x00, 0xA4, 0x04, 0x00, 0x00] := by decide +kernel

/-- V5.3. -/
theorem test_getResponse : field wire (run 0x0200001A []) = some [0x00, 0xC0, 0x00, 0x00, 0x1A] := by decide +kernel

/-- V5.5. -/
theorem test_getData : field wire (run 0x03009F36 []) = some [0x80, 0xCA, 0x9F, 0x36] := by decide +kernel

/-- V5.7. -/
theorem test_putData_secure :
    field wire (run 0x04015F2D [0x65, 0x6E]) = some [0x04, 0xDA, 0x5F, 0x2D, 0x02, 0x65, 0x6E] := by decide +kernel

/-- V5.8. -/
theorem test_putData_plain :
    field wire (run 0x04005F2D [0x65, 0x6E]) = some [0x00, 0xDA, 0x5F, 0x2D, 0x02, 0x65, 0x6E] := by decide +kernel

/-- V5.9, with bytes in `DIN` that the request must not read. -/
theorem test_getProcessingOptions :
    field wire (run 0x05000000 [0x11, 0x22]) = some [0x80, 0xA8, 0x00, 0x00, 0x02, 0x83, 0x00] := by decide +kernel

/-- V5.10. -/
theorem test_readRecord : field wire (run 0x0600010C []) = some [0x00, 0xB2, 0x01, 0x0C] := by decide +kernel

/-- V5.12. -/
theorem test_externalAuthenticate :
    field wire (run 0x07000000 [0x11, 0x22, 0x33, 0x44, 0x55, 0x66, 0x77, 0x88, 0x30, 0x30]) =
      some [0x00, 0x82, 0x00, 0x00, 0x0A, 0x11, 0x22, 0x33, 0x44, 0x55, 0x66, 0x77, 0x88, 0x30, 0x30] := by decide +kernel

/-- V5.13. -/
theorem test_generateAc_aac : field wire (run 0x08000000 []) = some [0x80, 0xAE, 0x00, 0x00, 0x00] := by decide +kernel

/-- V5.14. -/
theorem test_generateAc_arqc : field wire (run 0x08010000 [0x00, 0x00, 0x00, 0x01]) =
    some [0x80, 0xAE, 0x80, 0x00, 0x04, 0x00, 0x00, 0x00, 0x01] := by decide +kernel

/-- V5.16. -/
theorem test_resetPinTryCounter : field wire (run 0x09000000 [0x01, 0x02, 0x03, 0x04, 0x05, 0x06, 0x07, 0x08]) =
    some [0x84, 0x24, 0x00, 0x00, 0x08, 0x01, 0x02, 0x03, 0x04, 0x05, 0x06, 0x07, 0x08] := by decide +kernel

/-- V5.17. -/
theorem test_offlineChangePin : field wire (run 0x0A000000 [0x24, 0x12, 0x34, 0xFF, 0xFF, 0xFF, 0xFF, 0xFF]) =
    some [0x84, 0x24, 0x00, 0x02, 0x08, 0x24, 0x12, 0x34, 0xFF, 0xFF, 0xFF, 0xFF, 0xFF] := by decide +kernel

/-- V5.18. -/
theorem test_verify : field wire (run 0x0B000000 [0x24, 0x12, 0x34, 0xFF, 0xFF, 0xFF, 0xFF, 0xFF]) =
    some [0x00, 0x20, 0x00, 0x80, 0x08, 0x24, 0x12, 0x34, 0xFF, 0xFF, 0xFF, 0xFF, 0xFF] := by decide +kernel

/-- V5.19. -/
theorem test_applicationBlock : field wire (run 0x0C000000 [0xAA, 0xBB, 0xCC, 0xDD]) =
    some [0x84, 0x1E, 0x00, 0x00, 0x04, 0xAA, 0xBB, 0xCC, 0xDD] := by decide +kernel

/-- V5.20. -/
theorem test_applicationUnblock : field wire (run 0x0D000000 [0xAA, 0xBB, 0xCC, 0xDD]) =
    some [0x84, 0x18, 0x00, 0x00, 0x04, 0xAA, 0xBB, 0xCC, 0xDD] := by decide +kernel

/-- V5.21 and its field view. -/
theorem test_withLength : field State.cmd (step (holding.withFetchWord 32 0x0E00002F)) =
    some ⟨.readRecord, 0x00, 0xB2, 0x01, 0x0C, some 0x2F, none, none⟩ := by decide +kernel

/-- V5.25. -/
theorem test_withLength_without_command :
    field (fun s => (s.err, s.cmdValid)) (run 0x0E000010 []) = some (.noCommand, false) := by decide +kernel

/-- V6.11, V6.12: an illegal word changes nothing but `ERR`, and nothing is transmitted. -/
theorem test_illegal_word : field (fun s => (s.err, s.fsm, wire s, s.transmitted)) (step (holding.withFetchWord 32 0x10800000)) =
    some (.illegalRequest, .done, [0x00, 0xB2, 0x01, 0x0C], []) := by decide +kernel

/-! ## Byte utilities and status words -/

/-- V2.1 to V2.5. -/
theorem test_byte_utilities : hi 0x9F36 = 0x9F ∧ lo 0x9F36 = 0x36 ∧ hi 0xFF00 = 0xFF ∧ lo 0x00FF = 0xFF ∧
    combine 0x6A 0x82 = 0x6A82 := by decide

/-- V3.1 to V3.14, the codes that have a variant. -/
theorem test_status_table :
    [decodeStatus 0x61 0xFF, decodeStatus 0x6C 0x2F, decodeStatus 0x62 0x83, decodeStatus 0x67 0x00, decodeStatus 0x69 0x82] ++
    [decodeStatus 0x69 0x85, decodeStatus 0x6A 0x82, decodeStatus 0x6A 0x88, decodeStatus 0x6D 0x00, decodeStatus 0x90 0x00] =
    [.responseAvailable 0xFF, .wrongLengthLe 0x2F, .selectedFileInvalidated, .wrongLength, .securityConditionNotSatisfied] ++
    [.conditionsOfUseNotSatisfied, .fileNotFound, .referencedDataNotFound, .instructionCodeNotSupported, .ok] := by decide

/-- V3.6, V3.8, V3.15 to V3.21. -/
theorem test_status_unknown :
    [decodeStatus 0x62 0x84, decodeStatus 0x67 0x01, decodeStatus 0x6A 0x83, decodeStatus 0x90 0x01, decodeStatus 0x63 0xC2,
     decodeStatus 0x6E 0x00, decodeStatus 0x00 0x00, decodeStatus 0xFF 0xFF, decodeStatus 0x60 0x61].all
      (fun x => statusKind x == 0xF && statusLen x == 0) = true := by decide

/-- Section 3, request form. -/
theorem test_decodeStatus : field (fun s => (s.dsValid, s.dsStatus, s.err)) (run 0x11006A82 []) =
    some (true, .fileNotFound, .none) := by decide +kernel

/-! ## TLV -/

/-- S8, V4.5: as requests. -/
theorem test_decodeTlv :
    field (fun s => (s.dtTlv, s.dtDiag)) (run 0x12000000 [0x6F, 0x05, 0x84, 0x03, 0x01, 0x02, 0x03]) =
      some ([⟨.one 0x84, 3, [1, 2, 3]⟩], .decoded) := by decide +kernel

theorem test_decodeTlv_truncated :
    field (fun s => (s.dtTlv, s.dtDiag)) (run 0x12000000 [0x84, 0x03, 0x01, 0x02]) = some ([], .truncated) := by decide +kernel

/-- V4.2, V4.3, V4.9, V4.10, V4.14, V4.26: truncated. -/
theorem test_tlv_truncated :
    [[0x84], [0x01], [0x9F, 0x36], [0x5A, 0x81, 0x01, 0x02, 0x03], [0x6F, 0x02, 0x84, 0x05], [0x42, 0x01]].all
      (fun b => decide (tlvDecode defaultConfig b = .error .truncated)) = true := by decide

/-- V4.7, V4.30: an unknown tag. -/
theorem test_tlv_unknown_tag : tlvDecode defaultConfig [0x01, 0x02] = .error .unknownTag ∧
    tlvDecode defaultConfig [0x77, 0x06, 0x9F, 0x27, 0x01, 0x80, 0x01, 0x02] = .error .unknownTag := by decide

/-- V4.11 in both modes. -/
theorem test_tlv_sibling :
    tlvDecode defaultConfig [0x6F, 0x03, 0x84, 0x01, 0xAA, 0x50, 0x01, 0xBB] =
      .ok [⟨.one 0x84, 1, [0xAA]⟩, ⟨.one 0x50, 1, [0xBB]⟩] ∧
    tlvDecode discardConfig [0x6F, 0x03, 0x84, 0x01, 0xAA, 0x50, 0x01, 0xBB] = .ok [⟨.one 0x84, 1, [0xAA]⟩] := by decide

/-- V4.15 in both modes. -/
theorem test_tlv_bad_sibling :
    tlvDecode defaultConfig [0x6F, 0x03, 0x84, 0x01, 0xAA, 0x01] = .error .truncated ∧
    tlvDecode discardConfig [0x6F, 0x03, 0x84, 0x01, 0xAA, 0x01] = .ok [⟨.one 0x84, 1, [0xAA]⟩] := by decide

/-- V4.24, V4.21: three levels with a 2-byte template; a primitive value is not parsed. -/
theorem test_tlv_levels :
    tlvDecode defaultConfig [0x6F, 0x08, 0xA5, 0x06, 0xBF, 0x0C, 0x03, 0x9F, 0x11, 0x00] = .ok [⟨.two 0x9F11, 0, []⟩] ∧
    tlvDecode defaultConfig [0x80, 0x02, 0x84, 0x00] = .ok [⟨.one 0x80, 2, [0x84, 0x00]⟩] := by decide

/-- V4.16. -/
theorem test_tlv_round_trip : tlvDecode defaultConfig [0x5A, 0x02, 0x12, 0x34, 0x9F, 0x36, 0x02, 0x00, 0x2A] =
    .ok [⟨.one 0x5A, 2, [0x12, 0x34]⟩, ⟨.two 0x9F36, 2, [0x00, 0x2A]⟩] := by decide

/-! ## The protocol, one step at a time -/

/-- P2 step 2. -/
theorem test_exchange : field (fun s => (s.tx, s.fsm, s.respValid)) (step (holding.withFetchWord 32 0x10000000)) =
    some ([0x00, 0xB2, 0x01, 0x0C], .sent, false) := by decide +kernel

/-- V8.1. -/
theorem test_exchange_without_command :
    field (fun s => (s.err, s.fsm, s.transmitted)) (run 0x10000000 []) = some (.noCommand, .done, []) := by decide +kernel

/-- S11, first delivery. -/
theorem test_retry : field (fun s => (s.tx, s.fsm, wire s)) (step (sentWith [.deliver (.ok [0x6C, 0x2F])])) =
    some ([0x00, 0xB2, 0x01, 0x0C, 0x2F], .awaitingRetry, [0x00, 0xB2, 0x01, 0x0C]) := by decide +kernel

/-- V8.13. -/
theorem test_more : field (fun s => (s.tx, s.fsm, s.respValid)) (step (sentWith [.deliver (.ok [0x61, 0x00])])) =
    some ([0x00, 0xC0, 0x00, 0x00, 0x00], .awaitingMore, false) := by decide +kernel

/-- V8.8, second delivery: no second retry. -/
theorem test_no_second_retry :
    field (fun s => (s.tx, s.fsm, s.respStatus, s.respSw)) (step (retriedWith [.deliver (.ok [0x6C, 0x30])])) =
      some ([0x00, 0xB2, 0x01, 0x0C, 0x2F], .done, .wrongLengthLe 0x30, (0x6C, 0x30)) := by decide +kernel

/-- V8.15. -/
theorem test_surfaced : field (fun s => (s.fsm, s.respStatus, s.respRaw, s.respTlv, s.respTlvDiag))
    (step (sentWith [.deliver (.ok [0x6F, 0x03, 0x84, 0x01, 0xAA, 0x01, 0x62, 0x83])])) =
      some (.done, .selectedFileInvalidated, [0x6F, 0x03, 0x84, 0x01, 0xAA, 0x01], [], .truncated) := by decide +kernel

/-- V8.4, V8.7. -/
theorem test_rejected_answers :
    field (fun s => (s.err, s.fsm, s.respValid)) (step (sentWith [.deliver (.ok [0x90])])) = some (.shortReply, .done, false) ∧
    field (fun s => (s.err, s.fsm, s.respValid)) (step (sentWith [.deliver .transportError])) =
      some (.transport, .done, false) := by decide +kernel

/-- R249: the short-reply check comes before the long-reply check, seen where one byte exceeds the limit too. -/
theorem test_short_before_long : acceptAnswer { defaultConfig with rxMax := 0 } (.ok [0x90]) = .error .shortReply := by decide

/-- V8.5: 259 bytes. -/
theorem test_reply_too_long :
    field (fun s => (s.err, s.fsm)) (step (sentWith [.deliver (.ok (List.replicate 257 0 ++ [0x90, 0x00]))])) =
      some (.replyTooLong, .done) := by decide +kernel

/-- Section 8, reset during an exchange. -/
theorem test_reset_in_exchange : field (fun s => (s.fsm, s.cmdValid, s.err, s.tx)) (step (retriedWith [.reset])) =
    some (.done, false, .none, []) := by decide +kernel

/-- R222, R23: a presented request waits until the Transport has answered. -/
theorem test_request_waits : field (fun s => (s.fsm, s.agenda)) (step (sentWith [.present 0x12000000#32, .deliver .transportError])) =
    some (.done, [.present 0x12000000#32]) := by decide +kernel

/-- R37: a read of `CMD` after reset is forbidden. -/
theorem test_read_forbidden : step { State.reset with agenda := [.read .cmd] } = .fault (.invalidRead .cmd) := by rfl

/-! ## Witnesses: for each obligation with hypotheses, an input that meets them all -/

theorem witness_EncodeOfDecodedWordIsTheWord : decode 0x0401FFFF#32 = .ok (.putData true 0xFFFF) := by decide

theorem witness_IllegalWordOnlySetsErr : (holding.withFetchWord 32 0x11016A82).reqValid = true ∧
    (holding.withFetchWord 32 0x11016A82).fsm = .done ∧ illegalWord (holding.withFetchWord 32 0x11016A82).req = true := by decide

theorem witness_StepRunsTheAcceptedRequest : (holding.withFetchWord 32 0x0E00002F).reqValid = true ∧
    (holding.withFetchWord 32 0x0E00002F).fsm = .done ∧
    decode (holding.withFetchWord 32 0x0E00002F).req = .ok (.withLength 0x2F) := by decide

theorem witness_PlacedWordRunsNext : decodeTableWord 32 0x0600010C = some (.readRecord 0x01 0x0C) := by decide

theorem witness_PendingExchangeWaits : (sentWith [.driveDin 0 (dinOf []), .present 0x12000000#32]).fsm ≠ .done ∧
    ∀ a ∈ (sentWith [.driveDin 0 (dinOf []), .present 0x12000000#32]).agenda, waitsWhilePending a = true :=
  ⟨by decide +kernel, by simp [sentWith, waitsWhilePending]⟩

/-- A Command with every field: each clause has its hypothesis. -/
theorem witness_SerializedCommandLayout :
    (⟨.select, 0x00, 0xA4, 0x04, 0x00, some 1, some [0xA0], some 0⟩ : Command).lc = some 1 ∧
    (⟨.select, 0x00, 0xA4, 0x04, 0x00, some 1, some [0xA0], some 0⟩ : Command).data = some [0xA0] ∧
    (⟨.select, 0x00, 0xA4, 0x04, 0x00, some 1, some [0xA0], some 0⟩ : Command).le = some 0 ∧
    commandOk ⟨.select, 0x00, 0xA4, 0x04, 0x00, some 1, some [0xA0], some 0⟩ :=
  ⟨rfl, rfl, rfl, fun d hd => by cases hd; exact ⟨by decide, rfl⟩⟩

/-- A Command of the largest length meets R26. -/
theorem witness_SerializedCommandLayout_largest :
    commandOk ⟨.select, 0x00, 0xA4, 0x04, 0x00, some 0xFF, some (List.replicate 255 0), some 0⟩ :=
  fun d hd => by
    cases hd
    simp only [List.length_replicate]
    decide

theorem witness_GenerateAcWritesItsCommand (s : State) :
    (CryptogramType.aac = .aac ∧ s.cfg.rcAac = s.cfg.rcAac) ∧ (CryptogramType.arqc = .arqc ∧ s.cfg.rcArqc = s.cfg.rcArqc) ∧
    (CryptogramType.tc = .tc ∧ s.cfg.rcTc = s.cfg.rcTc) := by simp

theorem witness_EveryBuilderWritesOnlyTheCommand :
    builtShape .verify = some .headerLcData ∧ takesData .verify = true ∧ builtShape (.getResponse 0) = some .headerLe := by decide

/-- For the statements about the words of a row: a word of each operation code, some with a reserved bit set. -/
theorem witness_words_of_each_row :
    ([(0x01000000#32, 0x01#8), (0x0200011A#32, 0x02#8), (0x0300FFFF#32, 0x03#8), (0x04020000#32, 0x04#8)] ++
     [(0x05000000#32, 0x05#8), (0x0600FFFF#32, 0x06#8), (0x07000000#32, 0x07#8), (0x08030000#32, 0x08#8)] ++
     [(0x08020000#32, 0x08#8), (0x09800000#32, 0x09#8), (0x0A000000#32, 0x0A#8), (0x0B000000#32, 0x0B#8)] ++
     [(0x0C000000#32, 0x0C#8), (0x0D000000#32, 0x0D#8), (0x0E0000FF#32, 0x0E#8), (0x10800000#32, 0x10#8)] ++
     [(0x11016A82#32, 0x11#8), (0x12000001#32, 0x12#8)]).all
      (fun p => (p.1 : Word).extractLsb 31 24 == p.2) = true := by decide

theorem witness_WithLengthReplacesLcAndDropsData : holding.cmdValid = true ∧ State.reset.cmdValid = false := by decide

theorem witness_DecodeStatusRequestRecordsTheStatus :
    (0x11016A82#32 : Word).extractLsb 31 24 = 0x11#8 ∧ (0x11016A82#32 : Word).extractLsb 23 16 ≠ 0#8 ∧
    (0x11006A82#32 : Word).extractLsb 31 24 = 0x11#8 ∧ (0x11006A82#32 : Word).extractLsb 23 16 = 0#8 := by decide

/-- The hypotheses of R173: a 1-byte tag, a 2-byte tag, neither. -/
theorem witness_TlvHeaderRules :
    defaultConfig.tags1.lookup 0x84 = some .primitive ∧ defaultConfig.tags1.lookup 0x9F = none ∧
    defaultConfig.tags2.lookup (combine 0x9F 0x36) = some .primitive ∧ defaultConfig.tags1.lookup 0x01 = none ∧
    defaultConfig.tags2.lookup (combine 0x01 0x02) = none := by decide

/-- Both sides of the length check of R175, at its edge. -/
theorem witness_TlvHeaderRules_length : ([1, 2] : List Byte).length < (3#8).toNat ∧ ¬ ([1, 2, 3] : List Byte).length < (3#8).toNat := by
  decide

theorem recordOk_short : recordOk defaultConfig ⟨.one 0x84, 1, [0xAA]⟩ ∧ recordOk defaultConfig ⟨.two 0x9F36, 2, [0x00, 0x2A]⟩ ∧
    recordOk defaultConfig ⟨.one 0x42, 0, []⟩ := by
  simp only [recordOk]; decide

theorem witness_TlvRoundTrip : defaultConfig.catalogueOk = true ∧
    ∀ r ∈ ([⟨.one 0x84, 1, [0xAA]⟩, ⟨.two 0x9F36, 2, [0x00, 0x2A]⟩, ⟨.one 0x42, 0, []⟩] : List TlvRecord), recordOk defaultConfig r :=
  ⟨by decide, by simpa using recordOk_short⟩

theorem witness_TlvDecodesExactlyWhatTheBufferSpells :
    defaultConfig.catalogueOk = true ∧ defaultConfig.siblings = .preserve ∧
    Spells defaultConfig ([0x6F, 0x03, 0x84, 0x01, 0xAA] ++ []) ([⟨.one 0x84, 1, [0xAA]⟩] ++ []) :=
  ⟨by decide, rfl, .template ⟨.one 0x6F, 3, [0x84, 0x01, 0xAA]⟩ [] _ [] (by decide) (by decide)
    (.primitive ⟨.one 0x84, 1, [0xAA]⟩ [] [] recordOk_short.1 .empty) .empty⟩

theorem witness_DiscardModeDropsSiblings :
    discardConfig.catalogueOk = true ∧ discardConfig.siblings = .discard ∧
    recordOk discardConfig ⟨.one 0x84, 1, [0xAA]⟩ ∧
    tagClass discardConfig (TlvRecord.mk (.one 0x6F) 1 [0x01]).tag = some .constructed ∧
    (TlvRecord.mk (.one 0x6F) 1 [0x01]).value.length = (TlvRecord.mk (.one 0x6F) 1 [0x01]).length.toNat :=
  ⟨by decide, rfl, recordOk_short.1, by decide, rfl⟩

/-- Each clause: a bound at its edge, a primitive record, a template, and a header that fails. -/
theorem witness_TlvLoopIsBoundedByItsMeasure :
    stackMeasure [[0x84, 0x00], []] ≤ 8 ∧
    readPiece defaultConfig [0x84, 0x00] = .ok ⟨.primitive, ⟨.one 0x84, 0, []⟩, []⟩ ∧
    readPiece defaultConfig [0x6F, 0x01, 0x84, 0xAA] = .ok ⟨.constructed, ⟨.one 0x6F, 1, [0x84]⟩, [0xAA]⟩ ∧
    readPiece defaultConfig [0x84] = .error .truncated := by decide

theorem witness_TlvOutputIsWellFormed : tlvDecode defaultConfig [0x84, 0x00] = .ok [⟨.one 0x84, 0, []⟩] := by decide

theorem witness_TlvErrorAbortsTheWholeDecode :
    defaultConfig.catalogueOk = true ∧ (∀ r ∈ ([⟨.one 0x84, 1, [0xAA]⟩] : List TlvRecord), recordOk defaultConfig r) ∧
    tlvDecode defaultConfig [0x01, 0x02] = .error .unknownTag ∧
    tagClass defaultConfig (TlvRecord.mk (.one 0x6F) 2 [0x01, 0x02]).tag = some .constructed ∧
    (TlvRecord.mk (.one 0x6F) 2 [0x01, 0x02]).value.length = (TlvRecord.mk (.one 0x6F) 2 [0x01, 0x02]).length.toNat :=
  ⟨by decide, by simpa using recordOk_short.1, by decide, by decide, rfl⟩

theorem witness_DecodeTlvRequestRecordsTheOutcome :
    tlvDecode (loaded [0x84, 0x00]).cfg ((loaded [0x84, 0x00]).din.toList.take (loaded [0x84, 0x00]).dinLen.toNat) =
      .ok [⟨.one 0x84, 0, []⟩] ∧
    tlvDecode (loaded [0x01, 0x02]).cfg ((loaded [0x01, 0x02]).din.toList.take (loaded [0x01, 0x02]).dinLen.toNat) =
      .error .unknownTag ∧
    tlvDecode (loaded [0x84]).cfg ((loaded [0x84]).din.toList.take (loaded [0x84]).dinLen.toNat) = .error .truncated ∧
    (0x12000001#32 : Word).extractLsb 31 24 = 0x12#8 ∧ (0x12000001#32 : Word).extractLsb 23 0 ≠ 0#24 := by decide +kernel

theorem witness_EnvelopeKeepsThePayload :
    tlvDecode defaultConfig [0x84, 0x00] = .ok [⟨.one 0x84, 0, []⟩] ∧ tlvDecode defaultConfig [0x01, 0x02] = .error .unknownTag ∧
    tlvDecode defaultConfig [0x84, 0x05, 0x01] = .error .truncated := by decide

theorem witness_ExchangeTransmitsTheCommand : holding.cmdValid = true ∧ State.reset.cmdValid = false ∧
    (0x10800000#32 : Word).extractLsb 31 24 = 0x10#8 ∧ (0x10800000#32 : Word).extractLsb 23 0 ≠ 0#24 := by decide

/-- V8.6, V8.4, V8.5: the reply limit from both sides, and one byte. -/
theorem witness_ReplyAcceptance : 2 ≤ (List.replicate 259 (0 : Byte)).length ∧ (List.replicate 256 (0 : Byte)).length + 2 ≤ defaultConfig.rxMax ∧
    ([0x90] : List Byte).length < 2 ∧ defaultConfig.rxMax < (List.replicate 259 (0 : Byte)).length := by
  simp only [List.length_replicate]; decide

theorem witness_SentStepFollowsTheStatusWord (sw1 : Byte) : (sentWith [.deliver (.ok ([] ++ [sw1, 0x2F]))]).fsm = .sent ∧
    (sentWith [.deliver (.ok ([] ++ [sw1, 0x2F]))]).agenda = .deliver (.ok ([] ++ [sw1, 0x2F])) :: [] ∧
    ([] : List Byte).length + 2 ≤ (sentWith []).cfg.rxMax ∧ (sentWith []).cmdValid = true := by
  simp [sentWith, holding, State.reset, defaultConfig]

theorem witness_ContinuationReplyIsSurfaced :
    (moreWith [.deliver (.ok ([0x84, 0x00] ++ [0x61, 0x05]))]).fsm = .awaitingMore ∧
    (moreWith [.deliver (.ok ([0x84, 0x00] ++ [0x61, 0x05]))]).agenda = .deliver (.ok ([0x84, 0x00] ++ [0x61, 0x05])) :: [] ∧
    ([0x84, 0x00] : List Byte).length + 2 ≤ (moreWith []).cfg.rxMax ∧ (retriedWith []).fsm = .awaitingRetry := by decide

/-- Each clause, in a waiting state: a transport error, one byte, and one byte more than the limit. -/
theorem witness_RejectedAnswerEndsTheExchange (a : Answer) :
    (moreWith [.deliver a]).fsm ≠ .done ∧ (moreWith [.deliver a]).agenda = .deliver a :: [] ∧ ([0x90] : List Byte).length < 2 ∧
    2 ≤ (List.replicate 259 (0 : Byte)).length ∧ (moreWith [.deliver a]).cfg.rxMax < (List.replicate 259 (0 : Byte)).length := by
  refine ⟨by simp [moreWith], rfl, by decide, ?_, ?_⟩ <;> rw [List.length_replicate]
  · decide
  · show 258 < 259
    decide

theorem witness_AtMostOneContinuation_exchange :
    (∃ t, exec .exchange holding = .next t) ∧ holding.fsm = .done := ⟨⟨_, rfl⟩, rfl⟩

theorem witness_AtMostOneContinuation_step :
    (∃ t, step (sentWith [.deliver (.ok [0x6C, 0x2F])]) = .next t) ∧ (sentWith [.deliver (.ok [0x6C, 0x2F])]).fsm ≠ .done :=
  ⟨⟨_, rfl⟩, by decide +kernel⟩

theorem witness_AtMostOneContinuation_delivery :
    (∃ t, deliver (.ok [0x6C, 0x2F]) (retriedWith []) = .next t) ∧ (retriedWith []).fsm = .awaitingRetry := ⟨⟨_, rfl⟩, rfl⟩

theorem witness_UnwantedAnswersHaveNoEffect :
    { retriedWith [.lateAnswer .transportError] with reqValid := false }.reqValid = false ∧
    { retriedWith [.lateAnswer .transportError] with reqValid := false }.agenda = .lateAnswer .transportError :: [] ∧
    { holding with agenda := [.deliver (.ok [])] }.fsm = .done := by decide

theorem witness_ResetEventRestoresEveryRegister : (retriedWith [.reset]).reqValid = false ∧
    (retriedWith [.reset]).agenda = .reset :: [] := by decide

theorem witness_ReadsFaultExactlyWithoutAValue :
    { holding with agenda := [.read .cmd] }.reqValid = false ∧ { holding with agenda := [.read .cmd] }.agenda = .read .cmd :: [] ∧
    holdsValue holding .cmd = true ∧ holdsValue State.reset .cmd = false := by decide

theorem witness_ReadsGiveTheSpecCodes : holding.cmdValid = true ∧ { holding with respValid := true }.respValid = true ∧
    { holding with dsValid := true }.dsValid = true ∧ { holding with dtValid := true }.dtValid = true := by decide

/-- A pending exchange meets the invariant. -/
theorem sent_inv (agenda : List Stimulus) : Inv (sentWith agenda) := by
  constructor <;> simp [sentWith, holding, State.reset, commandOk, cmdReadRecord, serialize, optByte, defaultConfig]

theorem witness_StepKeepsTheInvariant : Inv (sentWith [.deliver (.ok [0x6C, 0x2F])]) ∧
    ∃ t, step (sentWith [.deliver (.ok [0x6C, 0x2F])]) = .next t := ⟨sent_inv _, _, rfl⟩

theorem witness_StepStopsOnlyAtForbiddenReads : Inv (sentWith [.read .respStatus]) ∧
    step (sentWith [.read .respStatus]) = .fault (.invalidRead .respStatus) := ⟨sent_inv _, rfl⟩

/-- For the statements about every step that answers a next state. -/
theorem witness_step_answers_next :
    (∃ t, step (sentWith [.deliver (.ok [0x6C, 0x2F])]) = .next t) ∧ (∃ t, step (holding.withFetchWord 32 0x10000000) = .next t) ∧
    ∃ t, step { State.reset with agenda := [.driveDin 1 (dinOf [0xA0])] } = .next t := ⟨⟨_, rfl⟩, ⟨_, rfl⟩, ⟨_, rfl⟩⟩

/-- `DIN` with another byte above `DIN_LEN`. -/
theorem witness_BytesAboveDinLenAreNotRead :
    (dinOf [0xA0, 0x55]).toList.take { State.reset with dinLen := 1, din := dinOf [0xA0] }.dinLen.toNat =
      { State.reset with dinLen := 1, din := dinOf [0xA0] }.din.toList.take { State.reset with dinLen := 1, din := dinOf [0xA0] }.dinLen.toNat ∧
    ∃ t, exec .select { State.reset with dinLen := 1, din := dinOf [0xA0] } = .next t := ⟨by decide +kernel, _, rfl⟩

/-- Both ways a valid bit is cleared. -/
theorem witness_ValidBitsAreClearedOnlyByReset :
    field State.cmdValid (step { holding with agenda := [.reset] }) = some false ∧ holding.cmdValid = true ∧
    field State.respValid (step ({ holding with respValid := true }.withFetchWord 32 0x10000000)) = some false := by decide +kernel

/-- Each clause: `ERR` changes, the exchange goes on, a Response is surfaced. -/
theorem witness_ProtocolStepsKeepOtherRegisters :
    field State.err (deliver .transportError (sentWith [])) = some .transport ∧ (sentWith []).err = .none ∧
    field State.fsm (deliver (.ok [0x61, 0x05]) (sentWith [])) = some .awaitingMore ∧
    field State.respValid (deliver (.ok [0x90, 0x00]) (sentWith [])) = some true ∧ (sentWith []).respValid = false := by
  decide +kernel

theorem witness_AcceptedRequestOverwritesErr : accepts (holding.withFetchWord 32 0x13000000) = true ∧
    accepts (holding.withFetchWord 32 0x10000000) = true := by decide

theorem witness_UnreadableCommandHasNoEffect : State.reset.cmdValid = false ∧
    (∃ t, exec .exchange State.reset = .next t) ∧ ∃ t, exec .select State.reset = .next t := ⟨rfl, ⟨_, rfl⟩, _, rfl⟩

theorem witness_AssembledLineLoadsItsOperand :
    lineParts (.getData 0x9F36) = (.getData 0x9F36, none) ∧
    lineParts (.select (List.replicate 255 0)) = (.select, some (List.replicate 255 0)) ∧
    (List.replicate 255 (0 : Byte)).length ≤ 255 ∧ 255 < (List.replicate 256 (0 : Byte)).length := by
  exact ⟨rfl, rfl, by rw [List.length_replicate], by rw [List.length_replicate]; decide⟩

end Sys2Proof.Tests
end

/-! ## What a next state can be

Laws/Step.lean says what a request, a delivery and a step answer; here the same is said about the next state. -/

namespace Sys2Proof.Machine

/-- The state after a request. -/
theorem exec_next_cases {i : Instr} {s t : State} (h : exec i s = .next t) :
    (∃ c, commandOk c ∧ t = build c s) ∨
    (s.cmdValid = false ∧ t = raise .noCommand s) ∨
    (i = .exchange ∧ s.cmdValid = true ∧ t = transmit (serialize s.cmd) .sent (openExchange s)) ∨
    (∃ sw1 sw2, t = recordStatus (decodeStatus sw1 sw2) s) ∨
    t = recordTlv (tlvOutcome (tlvDecode s.cfg (dinOperand s))).1 (tlvOutcome (tlvDecode s.cfg (dinOperand s))).2 s := by
  obtain ⟨-, c, -, hc, he⟩ | ⟨n, -, -, he⟩ | ⟨-, hv, he⟩ | ⟨hi, hv, he⟩ | ⟨sw1, sw2, -, he⟩ | ⟨-, he⟩ := exec_cases i s
  all_goals
    rw [he] at h
    cases h
  · exact .inl ⟨c, hc, rfl⟩
  · exact .inl ⟨_, commandOk_of_no_data (withLength s.cmd n) rfl, rfl⟩
  · exact .inr (.inl ⟨hv, rfl⟩)
  · exact .inr (.inr (.inl ⟨hi, hv, rfl⟩))
  · exact .inr (.inr (.inr (.inl ⟨sw1, sw2, rfl⟩)))
  · exact .inr (.inr (.inr (.inr rfl)))

/-- The state after a delivery. -/
theorem deliver_next_cases {a : Answer} {s t : State} (h : deliver a s = .next t) :
    (s.fsm = .done ∧ t = s) ∨
    (s.fsm ≠ .done ∧ ∃ e, t = failExchange e s) ∨
    (s.fsm = .sent ∧ ∃ n, t = transmit (serialize (cmdGetResponse s.cfg n)) .awaitingMore s) ∨
    (s.fsm = .sent ∧ ∃ n, t = transmit (serialize (withLength s.cmd n)) .awaitingRetry s) ∨
    (s.fsm ≠ .done ∧ ∃ sw1 sw2 p, p.length + 2 ≤ s.cfg.rxMax ∧
      t = surface (envelope s.cfg (decodeStatus sw1 sw2) (sw1, sw2) p) s) := by
  obtain ⟨hf, he⟩ | ⟨hf, e, -, he⟩ | ⟨hf, n, he⟩ | ⟨hf, -, n, he⟩ | ⟨-, -, he⟩ | ⟨hf, sw1, sw2, p, hp, he⟩ := deliver_cases a s
  all_goals
    rw [he] at h
    cases h
  · exact .inl ⟨hf, rfl⟩
  · exact .inr (.inl ⟨hf, e, rfl⟩)
  · exact .inr (.inr (.inl ⟨hf, n, rfl⟩))
  · exact .inr (.inr (.inr (.inl ⟨hf, n, rfl⟩)))
  · exact .inr (.inr (.inr (.inr ⟨hf, sw1, sw2, p, hp, rfl⟩)))

theorem readReg_ok_of_holdsValue {s : State} {r : Reg} (hv : holdsValue s r = true) : ∃ v, readReg s r = .ok v := by
  cases hr : readReg s r with
  | ok v => exact ⟨v, rfl⟩
  | error f =>
    have hn := ((readReg_error_iff s r f).mp hr).1
    simp [hv] at hn

theorem readReg_error_of_not_holdsValue {s : State} {r : Reg} (hv : holdsValue s r = false) :
    readReg s r = .error (.invalidRead r) := (readReg_error_iff s r _).mpr ⟨hv, rfl⟩

/-- A read as a step: it stops exactly where the register holds no value (R37). -/
theorem readStep_eq (r : Reg) (s : State) :
    readStep r s = if holdsValue s r then .next s else .fault (.invalidRead r) := by
  cases hv : holdsValue s r with
  | true =>
    obtain ⟨v, hr⟩ := readReg_ok_of_holdsValue hv
    simp [readStep, hr]
  | false => simp [readStep, readReg_error_of_not_holdsValue hv]

/-- The state after another agent's action. -/
theorem respond_next_cases {a : Stimulus} {s t : State} (h : respond a s = .next t) :
    (∃ len bytes, a = .driveDin len bytes ∧ t = { s with dinLen := len, din := bytes }) ∨
    (∃ w, a = .present w ∧ t = { s with req := w, reqValid := true }) ∨
    t = s ∨
    (∃ x, deliver x s = .next t) ∨
    (a = .reset ∧ t = applyReset s) := by
  cases a with
  | driveDin len bytes => cases h; exact .inl ⟨len, bytes, rfl, rfl⟩
  | present w => cases h; exact .inr (.inl ⟨w, rfl, rfl⟩)
  | read r =>
    rw [respond, readStep_eq] at h
    split at h
    · cases h; exact .inr (.inr (.inl rfl))
    · cases h
  | deliver x => exact .inr (.inr (.inr (.inl ⟨x, h⟩)))
  | lateAnswer x => cases h; exact .inr (.inr (.inl rfl))
  | reset => cases h; exact .inr (.inr (.inr (.inr ⟨rfl, rfl⟩)))

/-- The state after a step. -/
theorem step_next_cases {s t : State} (h : step s = .next t) :
    (accepts s = true ∧ ∃ i, decode s.req = .ok i ∧ exec i (lowerStrobe s) = .next t) ∨
    (accepts s = true ∧ t = raise .illegalRequest (lowerStrobe s)) ∨
    (accepts s = false ∧ t = s) ∨
    (accepts s = false ∧ ∃ a rest, a ∈ s.agenda ∧ (s.fsm ≠ .done → waitsWhilePending a = false) ∧
      respond a { s with agenda := rest } = .next t) := by
  obtain ⟨ha, i, hi, he⟩ | ⟨ha, -, -, he⟩ | ⟨ha, he⟩ | ⟨ha, a, rest, hm, hw, he⟩ := step_cases s
  all_goals rw [he] at h
  · exact .inl ⟨ha, i, hi, h⟩
  · cases h; exact .inr (.inl ⟨ha, rfl⟩)
  · cases h; exact .inr (.inr (.inl ⟨ha, rfl⟩))
  · exact .inr (.inr (.inr ⟨ha, a, rest, hm, hw, h⟩))

end Sys2Proof.Machine

/-! ## The invariant -/

namespace Sys2Proof.Machine

/-- R71, R28: a Command that satisfies R26 serialises to at most 261 bytes. -/
theorem serialize_length_le {c : Command} (hc : commandOk c) : (serialize c).length ≤ 261 := by
  have hopt : ∀ o, (optByte o).length ≤ 1 := fun o => by cases o <;> simp [optByte]
  have hdata : (c.data.getD []).length ≤ 255 := by
    cases hd : c.data with
    | none => simp
    | some d => exact (hc d hd).1
  have hlc := hopt c.lc
  have hle := hopt c.le
  simp only [serialize, List.length_append, List.length_cons, List.length_nil]
  omega

/-- The decoder's loop outputs well-formed primitive records only (R32, R178). -/
theorem tlvLoop_recordOk {c : Config} {n : Nat} {stack : List (List Byte)} {out rs : List TlvRecord}
    (h : tlvLoop c n stack out = .ok rs) (hout : ∀ r ∈ out, recordOk c r) : ∀ r ∈ rs, recordOk c r := by
  induction n generalizing stack out with
  | zero =>
    cases stack with
    | nil => cases h; exact hout
    | cons f stack => cases h
  | succ n ih =>
    match stack with
    | [] => cases h; exact hout
    | [] :: stack => exact ih h hout
    | (b :: f) :: stack =>
      rw [tlvLoop_piece c n _ stack out (List.cons_ne_nil b f)] at h
      cases hp : readPiece c (b :: f) with
      | error e => simp [hp] at h
      | ok p =>
        obtain ⟨-, hcls, hlen⟩ := readPiece_ok hp
        cases hk : p.cls with
        | constructed =>
          simp only [hp, hk] at h
          exact ih h hout
        | primitive =>
          simp only [hp, hk] at h
          have hrec : recordOk c p.record := ⟨hlen, hk ▸ hcls⟩
          exact ih h (List.forall_mem_append.mpr ⟨hout, List.forall_mem_singleton.mpr hrec⟩)

/-- R32, R36: what a decode leaves in the result registers, whether it succeeds or fails. -/
theorem tlvOutcome_tlvDecode_ok (c : Config) (buf : List Byte) :
    ((tlvOutcome (tlvDecode c buf)).2 ≠ .decoded → (tlvOutcome (tlvDecode c buf)).1 = []) ∧
      ∀ r ∈ (tlvOutcome (tlvDecode c buf)).1, recordOk c r := by
  cases h : tlvDecode c buf with
  | ok rs => exact ⟨fun hd => absurd rfl hd, tlvLoop_recordOk h (by simp)⟩
  | error e => cases e <;> simp [tlvOutcome]

/-! The invariant and the shared updates of the state. -/

variable {s t : State}

theorem Inv.withAgenda (h : Inv s) (rest : List Stimulus) : Inv { s with agenda := rest } := { h with }

theorem Inv.lowerStrobe (h : Inv s) : Inv (lowerStrobe s) := { h with port := nofun }

theorem Inv.raise (h : Inv s) (hd : s.fsm = .done) (e : ErrCode) : Inv (raise e s) :=
  { h with pendingError := fun hf => absurd hd hf }

theorem Inv.build (h : Inv s) (hd : s.fsm = .done) {c : Command} (hc : commandOk c) : Inv (build c s) :=
  { h with
    command := fun _ => hc
    pendingCommand := fun _ => rfl
    pendingError := fun _ => rfl
    sent := fun hf => absurd (hd.symm.trans hf) nofun
    awaitingRetry := fun hf => absurd (hd.symm.trans hf) nofun }

theorem Inv.recordStatus (h : Inv s) (st : Status) : Inv (recordStatus st s) := { h with pendingError := fun _ => rfl }

theorem Inv.recordTlv (h : Inv s) {rs : List TlvRecord} {d : TlvDiag}
    (hr : (d ≠ .decoded → rs = []) ∧ ∀ r ∈ rs, recordOk s.cfg r) : Inv (recordTlv rs d s) :=
  { h with pendingError := fun _ => rfl, records := fun _ => hr }

/-- An accepted EXCHANGE (R211). -/
theorem Inv.exchange (h : Inv s) (hp : s.reqValid = false) (hv : s.cmdValid = true) :
    Inv (transmit (serialize s.cmd) .sent (openExchange s)) where
  port hr := absurd (hp.symm.trans hr) nofun
  command := h.command
  txBound := serialize_length_le (h.command hv)
  pendingCommand _ := hv
  pendingResponse _ := rfl
  pendingError _ := rfl
  pendingWire _ := rfl
  sent _ := rfl
  awaitingMore := nofun
  awaitingRetry := nofun
  response := nofun
  records := h.records

/-- A continuation (R217, R218): what is sent is the right Command for the state the protocol goes to. -/
theorem Inv.continuation (h : Inv s) (hf : s.fsm ≠ .done) {c : Command} {f : FsmState} (hc : commandOk c)
    (hsent : f ≠ .sent) (hmore : f = .awaitingMore → ∃ n, serialize c = serialize (cmdGetResponse s.cfg n))
    (hretry : f = .awaitingRetry → ∃ n, serialize c = serialize (withLength s.cmd n)) :
    Inv (transmit (serialize c) f s) where
  port hr := absurd (h.port hr) hf
  command := h.command
  txBound := serialize_length_le hc
  pendingCommand _ := h.pendingCommand hf
  pendingResponse _ := h.pendingResponse hf
  pendingError _ := h.pendingError hf
  pendingWire _ := rfl
  sent hs := absurd hs hsent
  awaitingMore := hmore
  awaitingRetry := hretry
  response := h.response
  records := h.records

/-- A state with nothing pending: the clauses about a pending exchange say nothing. -/
theorem Inv.of_done (hd : t.fsm = .done) (hcmd : t.cmdValid = true → commandOk t.cmd) (htx : t.tx.length ≤ 261)
    (hresp : t.respValid = true → t.respStatus = decodeStatus t.respSw.1 t.respSw.2 ∧
      t.respRaw.length + 2 ≤ t.cfg.rxMax ∧ (t.respTlv, t.respTlvDiag) = tlvOutcome (tlvDecode t.cfg t.respRaw))
    (hdt : t.dtValid = true → (t.dtDiag ≠ .decoded → t.dtTlv = []) ∧ ∀ r ∈ t.dtTlv, recordOk t.cfg r) : Inv t where
  port _ := hd
  command := hcmd
  txBound := htx
  pendingCommand hf := absurd hd hf
  pendingResponse hf := absurd hd hf
  pendingError hf := absurd hd hf
  pendingWire hf := absurd hd hf
  sent hf := absurd (hd.symm.trans hf) nofun
  awaitingMore hf := absurd (hd.symm.trans hf) nofun
  awaitingRetry hf := absurd (hd.symm.trans hf) nofun
  response := hresp
  records := hdt

theorem Inv.failExchange (h : Inv s) (e : ErrCode) : Inv (failExchange e s) :=
  .of_done rfl h.command h.txBound h.response h.records

/-- R213, R221: a surfaced Response is the envelope of an accepted reply. -/
theorem Inv.surface (h : Inv s) (sw1 sw2 : Byte) {p : List Byte} (hp : p.length + 2 ≤ s.cfg.rxMax) :
    Inv (surface (envelope s.cfg (decodeStatus sw1 sw2) (sw1, sw2) p) s) :=
  .of_done rfl h.command h.txBound (fun _ => ⟨rfl, hp, rfl⟩) h.records

theorem Inv.applyReset (s : State) : Inv (applyReset s) := .of_done rfl nofun (Nat.zero_le _) nofun nofun

/-! The invariant and the steps. -/

theorem Inv.exec {i : Instr} (h : Inv s) (hd : s.fsm = .done) (hp : s.reqValid = false) (he : exec i s = .next t) :
    Inv t := by
  obtain ⟨c, hc, rfl⟩ | ⟨-, rfl⟩ | ⟨-, hv, rfl⟩ | ⟨sw1, sw2, rfl⟩ | rfl := exec_next_cases he
  · exact h.build hd hc
  · exact h.raise hd _
  · exact h.exchange hp hv
  · exact h.recordStatus _
  · exact h.recordTlv (tlvOutcome_tlvDecode_ok _ _)

theorem Inv.deliver {a : Answer} (h : Inv s) (he : deliver a s = .next t) : Inv t := by
  obtain ⟨-, rfl⟩ | ⟨-, e, rfl⟩ | ⟨hf, n, rfl⟩ | ⟨hf, n, rfl⟩ | ⟨-, sw1, sw2, p, hp, rfl⟩ := deliver_next_cases he
  · exact h
  · exact h.failExchange e
  · exact h.continuation (by simp [hf]) (commandOk_of_no_data _ rfl) nofun (fun _ => ⟨n, rfl⟩) nofun
  · exact h.continuation (by simp [hf]) (commandOk_of_no_data _ rfl) nofun nofun (fun _ => ⟨n, rfl⟩)
  · exact h.surface sw1 sw2 hp

/-- A request may be presented only while nothing is pending (R23). -/
theorem Inv.respond {a : Stimulus} (h : Inv s) (hw : s.fsm ≠ .done → waitsWhilePending a = false)
    (he : respond a s = .next t) : Inv t := by
  obtain ⟨len, bytes, -, rfl⟩ | ⟨w, rfl, rfl⟩ | rfl | ⟨x, hx⟩ | ⟨-, rfl⟩ := respond_next_cases he
  · exact { h with }
  · have hd : s.fsm = .done := by
      by_contra hf
      exact Bool.noConfusion (hw hf)
    exact { h with port := fun _ => hd }
  · exact h
  · exact h.deliver hx
  · exact .applyReset s

/-- Settles O46: each shared update keeps the invariant, and a step is one of them. -/
theorem stepKeepsTheInvariant : Obligations.StepKeepsTheInvariant := by
  intro s t h he
  obtain ⟨ha, i, -, hi⟩ | ⟨ha, rfl⟩ | ⟨-, rfl⟩ | ⟨-, a, rest, -, hw, hr⟩ := step_next_cases he
  · exact h.lowerStrobe.exec ((accepts_iff s).mp ha).2 rfl hi
  · exact h.lowerStrobe.raise ((accepts_iff s).mp ha).2 _
  · exact h
  · exact (h.withAgenda rest).respond hw hr

end Sys2Proof.Machine

/-! ## Where a step stops -/

namespace Sys2Proof.Machine

/-- What an outside action answers: a next state, or the fault of a read without a value. -/
theorem respond_answers (a : Stimulus) (s : State) :
    (∃ t, respond a s = .next t) ∨
    (∃ r, a = .read r ∧ holdsValue s r = false ∧ respond a s = .fault (.invalidRead r)) ∨
    (s.fsm = .sent ∧ s.cmdValid = false ∧ respond a s = .fault (.invalidRead .cmd)) := by
  cases a with
  | driveDin len bytes => exact .inl ⟨_, rfl⟩
  | present w => exact .inl ⟨_, rfl⟩
  | read r =>
    have hr : respond (.read r) s = if holdsValue s r then .next s else .fault (.invalidRead r) := readStep_eq r s
    cases hv : holdsValue s r with
    | true => exact .inl ⟨s, by simp [hr, hv]⟩
    | false => exact .inr (.inl ⟨r, rfl, hv, by simp [hr, hv]⟩)
  | deliver x =>
    obtain ⟨-, h⟩ | ⟨-, e, -, h⟩ | ⟨-, n, h⟩ | ⟨-, -, n, h⟩ | ⟨hf, hv, h⟩ | ⟨-, sw1, sw2, p, -, h⟩ := deliver_cases x s
    · exact .inl ⟨_, h⟩
    · exact .inl ⟨_, h⟩
    · exact .inl ⟨_, h⟩
    · exact .inl ⟨_, h⟩
    · exact .inr (.inr ⟨hf, hv, h⟩)
    · exact .inl ⟨_, h⟩
  | lateAnswer x => exact .inl ⟨_, rfl⟩
  | reset => exact .inl ⟨_, rfl⟩

/-- Every request answers a next state. -/
theorem exec_answers (i : Instr) (s : State) : ∃ t, exec i s = .next t := by
  obtain ⟨-, c, -, -, h⟩ | ⟨n, -, -, h⟩ | ⟨-, -, h⟩ | ⟨-, -, h⟩ | ⟨sw1, sw2, -, h⟩ | ⟨-, h⟩ := exec_cases i s
  all_goals exact ⟨_, h⟩

/-- What a step answers: a next state, the fault of a read that was offered, or that of the `6Cxx` continuation
without a Command. -/
theorem step_answers (s : State) :
    (∃ t, step s = .next t) ∨
    (∃ r, Stimulus.read r ∈ s.agenda ∧ holdsValue s r = false ∧ step s = .fault (.invalidRead r)) ∨
    (s.fsm = .sent ∧ s.cmdValid = false ∧ step s = .fault (.invalidRead .cmd)) := by
  obtain ⟨-, i, -, he⟩ | ⟨-, -, -, he⟩ | ⟨-, he⟩ | ⟨-, a, rest, hm, -, he⟩ := step_cases s
  · rw [he]; exact .inl (exec_answers i _)
  · exact .inl ⟨_, he⟩
  · exact .inl ⟨_, he⟩
  · rw [he]
    obtain h | ⟨r, rfl, hv, h⟩ | h := respond_answers a { s with agenda := rest }
    · exact .inl h
    · exact .inr (.inl ⟨r, hm, hv, h⟩)
    · exact .inr (.inr h)

/-- Settles O47: the invariant excludes the `6Cxx` continuation without a Command. -/
theorem stepStopsOnlyAtForbiddenReads : Obligations.StepStopsOnlyAtForbiddenReads := by
  refine ⟨fun s x hx => ?_, fun s f h hf => ?_⟩
  · obtain ⟨t, he⟩ | ⟨r, -, -, he⟩ | ⟨-, -, he⟩ := step_answers s
    all_goals
      rw [he] at hx
      cases hx
  · obtain ⟨t, he⟩ | ⟨r, hm, hv, he⟩ | ⟨hs, hv, -⟩ := step_answers s
    · rw [he] at hf; cases hf
    · rw [he] at hf; cases hf
      exact ⟨r, rfl, hv, hm⟩
    · have hc := h.pendingCommand (by simp [hs])
      simp [hv] at hc

end Sys2Proof.Machine

/-! ## What requests and deliveries leave unchanged -/

namespace Sys2Proof.Machine

theorem exec_din {i : Instr} {s t : State} (h : exec i s = .next t) : t.dinLen = s.dinLen ∧ t.din = s.din := by
  obtain ⟨c, -, rfl⟩ | ⟨-, rfl⟩ | ⟨-, -, rfl⟩ | ⟨sw1, sw2, rfl⟩ | rfl := exec_next_cases h
  all_goals exact ⟨rfl, rfl⟩

/-- Settles O52: a delivery does nothing, ends the exchange in an error, continues it, or surfaces a Response, and
each of these writes its own registers only. -/
theorem protocolStepsKeepOtherRegisters : Obligations.ProtocolStepsKeepOtherRegisters := by
  intro s t a h
  obtain ⟨-, rfl⟩ | ⟨hf, e, rfl⟩ | ⟨-, n, rfl⟩ | ⟨-, n, rfl⟩ | ⟨hf, sw1, sw2, p, -, rfl⟩ := deliver_next_cases h
  · simp [sameResponse]
  · simp [sameResponse, hf]
  · simp [sameResponse]
  · simp [sameResponse]
  · simp [hf]

theorem deliver_din {a : Answer} {s t : State} (h : deliver a s = .next t) : t.dinLen = s.dinLen ∧ t.din = s.din := by
  obtain ⟨-, -, -, -, -, -, -, hlen, hdin, -⟩ := protocolStepsKeepOtherRegisters s t a h
  exact ⟨hlen, hdin⟩

/-- Settles O49: of all that a step can be, only `driveDin` writes the operand port. -/
theorem onlyTheRequesterWritesDin : Obligations.OnlyTheRequesterWritesDin := by
  intro s t h
  obtain ⟨-, i, -, hi⟩ | ⟨-, rfl⟩ | ⟨-, rfl⟩ | ⟨ha, a, rest, hm, -, hr⟩ := step_next_cases h
  · exact .inl (exec_din hi :)
  · exact .inl ⟨rfl, rfl⟩
  · exact .inl ⟨rfl, rfl⟩
  · obtain ⟨len, bytes, rfl, rfl⟩ | ⟨w, -, rfl⟩ | rfl | ⟨x, hx⟩ | ⟨-, rfl⟩ := respond_next_cases hr
    · exact .inr ⟨ha, hm⟩
    · exact .inl ⟨rfl, rfl⟩
    · exact .inl ⟨rfl, rfl⟩
    · exact .inl (deliver_din hx :)
    · exact .inl ⟨rfl, rfl⟩

/-- R40: the three valid bits that only a reset clears do not fall from one state to the other. -/
def keepsValidBits (s t : State) : Prop :=
  (s.cmdValid = true → t.cmdValid = true) ∧ (s.dsValid = true → t.dsValid = true) ∧ (s.dtValid = true → t.dtValid = true)

theorem exec_keepsValidBits {i : Instr} {s t : State} (h : exec i s = .next t) : keepsValidBits s t := by
  obtain ⟨c, -, rfl⟩ | ⟨-, rfl⟩ | ⟨-, -, rfl⟩ | ⟨sw1, sw2, rfl⟩ | rfl := exec_next_cases h
  all_goals simp [keepsValidBits]

theorem exec_respValid {i : Instr} {s t : State} (h : exec i s = .next t) : i = .exchange ∨ t.respValid = s.respValid := by
  obtain ⟨c, -, rfl⟩ | ⟨-, rfl⟩ | ⟨hi, -, rfl⟩ | ⟨sw1, sw2, rfl⟩ | rfl := exec_next_cases h
  · exact .inr rfl
  · exact .inr rfl
  · exact .inl hi
  · exact .inr rfl
  · exact .inr rfl

theorem deliver_keepsValidBits {a : Answer} {s t : State} (h : deliver a s = .next t) : keepsValidBits s t := by
  obtain ⟨-, hcmd, hds, -, hdt, -⟩ := protocolStepsKeepOtherRegisters s t a h
  exact ⟨hcmd.trans, hds.trans, hdt.trans⟩

theorem deliver_respValid {a : Answer} {s t : State} (h : deliver a s = .next t) (hv : s.respValid = true) :
    t.respValid = true := by
  obtain ⟨-, rfl⟩ | ⟨-, e, rfl⟩ | ⟨-, n, rfl⟩ | ⟨-, n, rfl⟩ | ⟨-, sw1, sw2, p, -, rfl⟩ := deliver_next_cases h
  · exact hv
  · exact hv
  · exact hv
  · exact hv
  · rfl

/-- R40, over every step: a step clears no valid bit, but for an accepted EXCHANGE and a reset that was offered. -/
theorem step_validBits {s t : State} (h : step s = .next t) :
    (accepts s = false ∧ Stimulus.reset ∈ s.agenda) ∨
    (keepsValidBits s t ∧
      ((accepts s = true ∧ decode s.req = .ok .exchange) ∨ (s.respValid = true → t.respValid = true))) := by
  obtain ⟨ha, i, hi, he⟩ | ⟨-, rfl⟩ | ⟨-, rfl⟩ | ⟨ha, a, rest, hm, -, hr⟩ := step_next_cases h
  · obtain rfl | hv := exec_respValid he
    · exact .inr ⟨(exec_keepsValidBits he :), .inl ⟨ha, hi⟩⟩
    · exact .inr ⟨(exec_keepsValidBits he :), .inr hv.trans⟩
  · exact .inr ⟨⟨id, id, id⟩, .inr id⟩
  · exact .inr ⟨⟨id, id, id⟩, .inr id⟩
  · obtain ⟨len, bytes, -, rfl⟩ | ⟨w, -, rfl⟩ | rfl | ⟨x, hx⟩ | ⟨rfl, -⟩ := respond_next_cases hr
    · exact .inr ⟨⟨id, id, id⟩, .inr id⟩
    · exact .inr ⟨⟨id, id, id⟩, .inr id⟩
    · exact .inr ⟨⟨id, id, id⟩, .inr id⟩
    · exact .inr ⟨(deliver_keepsValidBits hx :), .inr (deliver_respValid hx :)⟩
    · exact .inl ⟨ha, hm⟩

/-- Settles O51: `step_validBits`, read for each valid bit. -/
theorem validBitsAreClearedOnlyByReset : Obligations.ValidBitsAreClearedOnlyByReset := by
  intro s t h
  obtain hreset | ⟨⟨hcmd, hds, hdt⟩, hresp⟩ := step_validBits h
  · exact ⟨fun _ => hreset, fun _ => .inr hreset⟩
  · refine ⟨fun hfall => ?_, fun ⟨hs, ht⟩ => .inl ?_⟩
    · obtain ⟨hs, ht⟩ | ⟨hs, ht⟩ | ⟨hs, ht⟩ := hfall
      · simp [hcmd hs] at ht
      · simp [hds hs] at ht
      · simp [hdt hs] at ht
    · exact hresp.resolve_right fun hkeep => by simp [hkeep hs] at ht

end Sys2Proof.Machine

/-! ## What a request reads -/

namespace Sys2Proof.Machine

/-- The Command of a builder request depends on the configuration and the data operand alone. -/
theorem exec_builder_reads {i : Instr} {sh : Shape} (h : builtShape i = some sh) :
    ∃ f : Config → List Byte → Command, ∀ s, exec i s = .next (build (f s.cfg (dinOperand s)) s) := by
  cases i with
  | select => exact ⟨fun _ => cmdSelect, fun _ => rfl⟩
  | getResponse n => exact ⟨fun c _ => cmdGetResponse c n, fun _ => rfl⟩
  | getData tag => exact ⟨fun c _ => cmdGetData c tag, fun _ => rfl⟩
  | putData secure tag => exact ⟨fun c => cmdPutData c secure tag, fun _ => rfl⟩
  | getProcessingOptions => exact ⟨fun c _ => cmdGetProcessingOptions c, fun _ => rfl⟩
  | readRecord record sfi => exact ⟨fun c _ => cmdReadRecord c record sfi, fun _ => rfl⟩
  | externalAuthenticate => exact ⟨cmdExternalAuthenticate, fun _ => rfl⟩
  | generateAc type => exact ⟨fun c => cmdGenerateAc c type, fun _ => rfl⟩
  | resetPinTryCounter => exact ⟨cmdResetPinTryCounter, fun _ => rfl⟩
  | offlineChangePin => exact ⟨cmdOfflineChangePin, fun _ => rfl⟩
  | verify => exact ⟨cmdVerify, fun _ => rfl⟩
  | applicationBlock => exact ⟨cmdApplicationBlock, fun _ => rfl⟩
  | applicationUnblock => exact ⟨cmdApplicationUnblock, fun _ => rfl⟩
  | withLength n => cases h
  | exchange => cases h
  | decodeStatus sw1 sw2 => cases h
  | decodeTlv => cases h

theorem exec_withLength_of_valid {s : State} {n : Byte} (hv : s.cmdValid = true) :
    exec (.withLength n) s = .next (build (withLength s.cmd n) s) := by simp [exec, execWithLength, hv]

theorem exec_withLength_of_not_valid {s : State} {n : Byte} (hv : s.cmdValid = false) :
    exec (.withLength n) s = .next (raise .noCommand s) := by simp [exec, execWithLength, hv]

theorem exec_exchange_of_valid {s : State} (hv : s.cmdValid = true) :
    exec .exchange s = .next (transmit (serialize s.cmd) .sent (openExchange s)) := by simp [exec, execExchange, hv]

theorem exec_exchange_of_not_valid {s : State} (hv : s.cmdValid = false) :
    exec .exchange s = .next (raise .noCommand s) := by simp [exec, execExchange, hv]

/-- Settles O50: a request reads `DIN` through `dinOperand` only. -/
theorem bytesAboveDinLenAreNotRead : Obligations.BytesAboveDinLenAreNotRead := by
  intro i s t b hb h
  have hop : dinOperand { s with din := b } = dinOperand s := hb
  cases hi : builtShape i with
  | some sh =>
    obtain ⟨f, hexec⟩ := exec_builder_reads hi
    rw [hexec] at h ⊢
    cases h
    rw [hop]; rfl
  | none =>
    cases i with
    | withLength n =>
      obtain hv | hv := Bool.eq_false_or_eq_true s.cmdValid
      · rw [exec_withLength_of_valid hv] at h; cases h
        exact exec_withLength_of_valid hv
      · rw [exec_withLength_of_not_valid hv] at h; cases h
        exact exec_withLength_of_not_valid hv
    | exchange =>
      obtain hv | hv := Bool.eq_false_or_eq_true s.cmdValid
      · rw [exec_exchange_of_valid hv] at h; cases h
        exact exec_exchange_of_valid hv
      · rw [exec_exchange_of_not_valid hv] at h; cases h
        exact exec_exchange_of_not_valid hv
    | decodeStatus sw1 sw2 => cases h; rfl
    | decodeTlv =>
      cases h
      simp only [exec, execDecodeTlv, hop]; rfl
    | _ => cases hi

/-- Settles O55: a builder replaces `CMD`, WITH_LENGTH and EXCHANGE find no Command, and the other requests do not
read it. -/
theorem unreadableCommandHasNoEffect : Obligations.UnreadableCommandHasNoEffect := by
  intro i s t c hv h
  cases hi : builtShape i with
  | some sh =>
    obtain ⟨f, hexec⟩ := exec_builder_reads hi
    rw [hexec] at h ⊢
    cases h; rfl
  | none =>
    cases i with
    | withLength n =>
      rw [exec_withLength_of_not_valid hv] at h
      cases h; simp [exec, execWithLength, raise, hv]
    | exchange =>
      rw [exec_exchange_of_not_valid hv] at h
      cases h; simp [exec, execExchange, raise, hv]
    | decodeStatus sw1 sw2 =>
      cases h; simp [exec, execDecodeStatus, recordStatus, hv]
    | decodeTlv =>
      cases h; simp [exec, execDecodeTlv, recordTlv, hv, dinOperand]
    | _ => cases hi

end Sys2Proof.Machine

/-! ## Accepting a request -/

namespace Sys2Proof.Machine

/-- Settles O5: an idle Block accepts the presented word, and a legal word runs its request. -/
theorem stepRunsTheAcceptedRequest : Obligations.StepRunsTheAcceptedRequest := by
  intro s i hv hd hi
  have ha : accepts s = true := (accepts_iff s).mpr ⟨hv, hd⟩
  calc step s = acceptRequest s := by simp [step, ha]
    _ = exec i { s with reqValid := false } := by rw [acceptRequest, hi]; rfl

theorem decode_of_decodeTableWord {nbits w : Nat} {i : Instr} (h : decodeTableWord nbits w = some i) :
    decode (BitVec.ofNat 32 (w % 2 ^ nbits)) = .ok i := by
  rw [decodeTableWord] at h
  split at h
  · cases hd : decode (BitVec.ofNat 32 (w % 2 ^ nbits)) with
    | ok j => simpa [hd, Except.toOption] using h
    | error e => simp [hd, Except.toOption] at h
  · cases h

/-- Settles O6: the placed word stands on the port of an idle Block, so O5 says what the step is. -/
theorem placedWordRunsNext : Obligations.PlacedWordRunsNext := by
  intro s w i h
  exact stepRunsTheAcceptedRequest (s.withFetchWord 32 w) i rfl rfl (decode_of_decodeTableWord h)

end Sys2Proof.Machine

/-! ## Reset values, codes and reads -/

namespace Sys2Proof.Machine

/-- Settles O42: the values of R39. -/
theorem resetStateHasTheSpecValues : Obligations.ResetStateHasTheSpecValues :=
  ⟨rfl, rfl, rfl, rfl, rfl, rfl, rfl, rfl⟩

/-- The Status that a register code stands for (R30). -/
def statusOfCode (kind : BitVec 4) (len : Byte) : Status :=
  match kind.toNat with
  | 0x0 => .ok
  | 0x1 => .responseAvailable len
  | 0x2 => .wrongLengthLe len
  | 0x3 => .selectedFileInvalidated
  | 0x4 => .wrongLength
  | 0x5 => .securityConditionNotSatisfied
  | 0x6 => .conditionsOfUseNotSatisfied
  | 0x7 => .fileNotFound
  | 0x8 => .referencedDataNotFound
  | 0x9 => .instructionCodeNotSupported
  | _ => .unknown

theorem statusOfCode_statusKind_statusLen (a : Status) : statusOfCode (statusKind a) (statusLen a) = a := by
  cases a <;> rfl

theorem statusKind_range (a : Status) : (statusKind a).toNat ≤ 9 ∨ (statusKind a).toNat = 15 := by
  cases a <;> simp [statusKind]

theorem statusLen_eq_zero {a : Status} (h : isContinuation a = false) : statusLen a = 0 := by
  cases a with
  | responseAvailable n => cases h
  | wrongLengthLe n => cases h
  | _ => rfl

/-- Settles O22: the code can be read back, so it tells every Status from every other. -/
theorem statusCodesAreFaithful : Obligations.StatusCodesAreFaithful := by
  refine ⟨⟨rfl, fun _ => rfl, fun _ => rfl, rfl, rfl, rfl, rfl, rfl, rfl, rfl, rfl⟩, fun a b hk hl => ?_,
    statusKind_range, fun _ => statusLen_eq_zero, fun _ => ⟨rfl, rfl⟩⟩
  calc a = statusOfCode (statusKind a) (statusLen a) := (statusOfCode_statusKind_statusLen a).symm
    _ = statusOfCode (statusKind b) (statusLen b) := by rw [hk, hl]
    _ = b := statusOfCode_statusKind_statusLen b

/-- Settles O43: a read without a value is the fault of R37, and as a step it stops there. -/
theorem readsFaultExactlyWithoutAValue : Obligations.ReadsFaultExactlyWithoutAValue := by
  refine ⟨fun s r => ⟨?_, ?_, ?_, ?_, readReg_error_of_not_holdsValue, readReg_ok_of_holdsValue⟩,
    fun s r rest hp hag => ?_⟩
  · rintro rfl; rfl
  · rintro (rfl | rfl | rfl | rfl | rfl) <;> rfl
  · rintro rfl; rfl
  · rintro (rfl | rfl) <;> rfl
  · have ha : accepts s = false := by simp [accepts, hp]
    have hstep : step s = if holdsValue s r then .next { s with agenda := rest } else .fault (.invalidRead r) :=
      (step_head s _ rest ha (.inr rfl) hag).trans (readStep_eq r _)
    exact ⟨fun hv => by simp [hstep, hv], fun hv => by simp [hstep, hv]⟩

theorem guarded_of_valid {valid : Bool} (h : valid = true) (r : Reg) (v : RegValue) : guarded valid r v = .ok v := by
  simp [guarded, h]

theorem readReg_reqReady_iff (s : State) : readReg s .reqReady = .ok (.bit true) ↔ s.fsm = .done := by
  simp [readReg]

/-- Settles O44: the codes of R29 and R241 tell the values apart, and a guarded read gives its value under its valid bit. -/
theorem readsGiveTheSpecCodes : Obligations.ReadsGiveTheSpecCodes := by
  refine ⟨readReg_reqReady_iff, fun s => ⟨fsmCode s.fsm, rfl, ?_⟩, fun s => ⟨errValue s.err, rfl, ?_⟩, fun s hv => ?_,
    fun s hv => guarded_of_valid hv _ _, fun s hv => guarded_of_valid hv _ _,
    fun s hv => ⟨guarded_of_valid hv _ _, guarded_of_valid hv _ _⟩, fun s => ⟨rfl, rfl, rfl, rfl, rfl⟩⟩
  · cases s.fsm <;> simp [fsmCode]
  · cases s.err <;> simp [errValue]
  · have value := guarded_of_valid hv
    exact ⟨value _ _, value _ _, value _ _, value _ _, value _ _⟩

end Sys2Proof.Machine

/-! ## What reaches the Transport -/

namespace Sys2Proof.Machine

/-- R55, R214: from `s` to `t` exactly what `TX` then holds was handed to the Transport, and its answer is owed. -/
def sendsTx (s t : State) : Prop := t.transmitted = t.tx :: s.transmitted ∧ t.fsm ≠ .done

/-- Of the requests only EXCHANGE sends, and it sends `CMD`. -/
theorem exec_transmitted {i : Instr} {s t : State} (h : exec i s = .next t) :
    t.transmitted = s.transmitted ∨ (i = .exchange ∧ sendsTx s t ∧ t.tx = serialize s.cmd) := by
  obtain ⟨c, -, rfl⟩ | ⟨-, rfl⟩ | ⟨hi, -, rfl⟩ | ⟨sw1, sw2, rfl⟩ | rfl := exec_next_cases h
  · exact .inl rfl
  · exact .inl rfl
  · exact .inr ⟨hi, ⟨rfl, nofun⟩, rfl⟩
  · exact .inl rfl
  · exact .inl rfl

/-- A delivery sends only as a continuation of `Sent`. -/
theorem deliver_transmitted {a : Answer} {s t : State} (h : deliver a s = .next t) :
    t.transmitted = s.transmitted ∨ (s.fsm = .sent ∧ sendsTx s t) := by
  obtain ⟨-, rfl⟩ | ⟨-, e, rfl⟩ | ⟨hf, n, rfl⟩ | ⟨hf, n, rfl⟩ | ⟨-, sw1, sw2, p, -, rfl⟩ := deliver_next_cases h
  · exact .inl rfl
  · exact .inl rfl
  · exact .inr ⟨hf, ⟨rfl, nofun⟩⟩
  · exact .inr ⟨hf, ⟨rfl, nofun⟩⟩
  · exact .inl rfl

/-- Of the other agents' actions only a delivery can make the Block send; a reset keeps the record (R271). -/
theorem respond_transmitted {a : Stimulus} {s t : State} (h : respond a s = .next t) :
    t.transmitted = s.transmitted ∨ (s.fsm = .sent ∧ sendsTx s t) := by
  obtain ⟨len, bytes, -, rfl⟩ | ⟨w, -, rfl⟩ | rfl | ⟨x, hx⟩ | ⟨-, rfl⟩ := respond_next_cases h
  · exact .inl rfl
  · exact .inl rfl
  · exact .inl rfl
  · exact deliver_transmitted hx
  · exact .inl rfl

/-- Settles O54: a step sends as its accepted EXCHANGE does, or as the delivery it takes in `Sent` does. -/
theorem transmissionsComeOnlyFromExchanges : Obligations.TransmissionsComeOnlyFromExchanges := by
  intro s t h
  obtain ⟨ha, i, hi, he⟩ | ⟨-, rfl⟩ | ⟨-, rfl⟩ | ⟨ha, a, rest, -, -, hr⟩ := step_next_cases h
  · obtain hkeep | ⟨rfl, ⟨hsent, hpending⟩, htx⟩ := exec_transmitted he
    · exact .inl hkeep
    · exact .inr ⟨hsent, hpending, .inl ⟨ha, hi, htx⟩⟩
  · exact .inl rfl
  · exact .inl rfl
  · obtain hkeep | ⟨hf, hsent, hpending⟩ := respond_transmitted hr
    · exact .inl hkeep
    · exact .inr ⟨hsent, hpending, .inr ⟨ha, hf⟩⟩

end Sys2Proof.Machine

/-! ## The request word -/

namespace Sys2Proof.Machine

theorem exists_wordOfBytes (w : Word) : ∃ a b c d, w = wordOfBytes a b c d :=
  ⟨_, _, _, _, (wordOfBytes_bytes w).symm⟩

theorem wordOfBytes_eq_zero_iff (a b c d : Byte) :
    wordOfBytes a b c d = 0#32 ↔ a = 0#8 ∧ b = 0#8 ∧ c = 0#8 ∧ d = 0#8 := by
  simp only [bits_eq_iff_toNat, wordOfBytes_toNat, BitVec.toNat_ofNat]; omega

/-- A mask below `OP` clears a word exactly if it clears each byte. -/
theorem and_mask_eq_zero_iff {m : Word} {b' c' d' : Byte} (hm : m = wordOfBytes 0#8 b' c' d') (a b c d : Byte) :
    wordOfBytes a b c d &&& m = 0#32 ↔ b &&& b' = 0#8 ∧ c &&& c' = 0#8 ∧ d &&& d' = 0#8 := by
  rw [hm, Laws.EncodingRow.and_wordOfBytes, wordOfBytes_eq_zero_iff, BitVec.and_zero]
  exact and_iff_right rfl

theorem and_ff (b : Byte) : b &&& 0xFF#8 = b := BitVec.and_allOnes

/-! For each mask of R73: the bytes of a word in which no bit of it is set. -/

theorem and_reserved_n_eq_zero_iff (a b c d : Byte) :
    wordOfBytes a b c d &&& Format.n.reserved = 0#32 ↔ b = 0#8 ∧ c = 0#8 ∧ d = 0#8 := by
  have hm : Format.n.reserved = wordOfBytes 0#8 0xFF#8 0xFF#8 0xFF#8 := rfl
  rw [and_mask_eq_zero_iff hm, and_ff, and_ff, and_ff]

theorem and_reserved_l_eq_zero_iff (a b c d : Byte) :
    wordOfBytes a b c d &&& Format.l.reserved = 0#32 ↔ b = 0#8 ∧ c = 0#8 := by
  have hm : Format.l.reserved = wordOfBytes 0#8 0xFF#8 0xFF#8 0#8 := rfl
  rw [and_mask_eq_zero_iff hm, and_ff, and_ff, BitVec.and_zero, eq_self, and_true]

theorem and_reserved_t_eq_zero_iff (a b c d : Byte) :
    wordOfBytes a b c d &&& Format.t.reserved = 0#32 ↔ b = 0#8 := by
  have hm : Format.t.reserved = wordOfBytes 0#8 0xFF#8 0#8 0#8 := rfl
  simp [and_mask_eq_zero_iff hm, and_ff]

theorem and_reserved_ts_eq_zero_iff (a b c d : Byte) :
    wordOfBytes a b c d &&& Format.ts.reserved = 0#32 ↔ b = 0#8 ∨ b = 1#8 := by
  have hm : Format.ts.reserved = wordOfBytes 0#8 0xFE#8 0#8 0#8 := rfl
  have hb : b &&& 0xFE#8 = 0#8 ↔ b = 0#8 ∨ b = 1#8 := by revert b; decide
  simp [and_mask_eq_zero_iff hm, hb]

theorem and_reserved_a_eq_zero_iff (a b c d : Byte) :
    wordOfBytes a b c d &&& Format.a.reserved = 0#32 ↔ b.toNat < 4 ∧ c = 0#8 ∧ d = 0#8 := by
  have hm : Format.a.reserved = wordOfBytes 0#8 0xFC#8 0xFF#8 0xFF#8 := rfl
  have hb : b &&& 0xFC#8 = 0#8 ↔ b.toNat < 4 := by revert b; decide
  rw [and_mask_eq_zero_iff hm, and_ff, and_ff, hb]

/-! The three clauses of R76, read from the row of the operation map. -/

theorem wordFormat_wordOfBytes (a b c d : Byte) : wordFormat (wordOfBytes a b c d) = opMap.lookup a :=
  congrArg (List.lookup · opMap) (opOf_wordOfBytes a b c d)

theorem illegalWord_of_unassigned {w : Word} (h : wordFormat w = none) : illegalWord w = true := by
  simp [illegalWord, unassignedOp, h]

theorem illegalWord_of_reserved_bit {a b c d : Byte} {f : Format} (hf : opMap.lookup a = some f)
    (h : ¬ wordOfBytes a b c d &&& f.reserved = 0#32) : illegalWord (wordOfBytes a b c d) = true := by
  simp [illegalWord, reservedBitSet, wordFormat_wordOfBytes, hf, h]

/-- In a row other than GENERATE_AC's only the reserved bits can make the word illegal. -/
theorem illegalWord_iff_reserved_bit {a b c d : Byte} {f : Format} (hf : opMap.lookup a = some f) (ha : f ≠ .a) :
    illegalWord (wordOfBytes a b c d) = true ↔ ¬ wordOfBytes a b c d &&& f.reserved = 0#32 := by
  have hop : ¬ (wordOfBytes a b c d).extractLsb 31 24 = 0x08#8 := by
    intro h8
    obtain rfl : a = 0x08#8 := (opOf_wordOfBytes a b c d).symm.trans h8
    exact ha (Option.some.inj hf).symm
  simp [illegalWord, unassignedOp, reservedBitSet, reservedType, wordFormat_wordOfBytes, hf, hop]

/-! What each format's decoder answers, against the legality of the word and its encoding. -/

/-- `r` is the right answer about `w`: an illegal word is rejected, a legal one gives the request it encodes. -/
def rightAnswer (w : Word) (r : Except BadWord Instr) : Prop :=
  (illegalWord w = true ∧ ∃ e, r = .error e) ∨ (illegalWord w = false ∧ ∃ i, r = .ok i ∧ encode i = w)

theorem rightAnswer_ite {w : Word} {p : Prop} [Decidable p] {i : Instr} {e : BadWord}
    (hp : illegalWord w = true ↔ ¬ p) (hi : p → encode i = w) : rightAnswer w (if p then .ok i else .error e) := by
  by_cases h : p
  · exact .inr ⟨Bool.eq_false_iff.mpr fun hw => hp.mp hw h, i, if_pos h, hi h⟩
  · exact .inl ⟨hp.mpr h, e, if_neg h⟩

section
variable {a : Byte} (b c d : Byte)

theorem formatN_rightAnswer {i : Instr} (hf : opMap.lookup a = some .n) (hi : encode i = wordOfBytes a 0 0 0) :
    rightAnswer (wordOfBytes a b c d) (formatN (wordOfBytes a b c d) i) := by
  rw [formatN_wordOfBytes]
  refine rightAnswer_ite ?_ ?_
  · rw [illegalWord_iff_reserved_bit hf nofun, and_reserved_n_eq_zero_iff]
  · rintro ⟨rfl, rfl, rfl⟩; exact hi

theorem formatL_rightAnswer {mk : Byte → Instr} (hf : opMap.lookup a = some .l)
    (hmk : ∀ n, encode (mk n) = wordOfBytes a 0 0 n) :
    rightAnswer (wordOfBytes a b c d) (formatL (wordOfBytes a b c d) mk) := by
  rw [formatL_wordOfBytes]
  refine rightAnswer_ite ?_ ?_
  · rw [illegalWord_iff_reserved_bit hf nofun, and_reserved_l_eq_zero_iff]
  · rintro ⟨rfl, rfl⟩; exact hmk d

/-- Formats R and S. -/
theorem formatBytes_rightAnswer {f : Format} {mk : Byte → Byte → Instr} (hf : opMap.lookup a = some f)
    (ha : f ≠ .a) (hm : f.reserved = Format.t.reserved) (hmk : ∀ x y, encode (mk x y) = wordOfBytes a 0 x y) :
    rightAnswer (wordOfBytes a b c d) (formatBytes (wordOfBytes a b c d) mk) := by
  rw [formatBytes_wordOfBytes]
  refine rightAnswer_ite ?_ ?_
  · rw [illegalWord_iff_reserved_bit hf ha, hm, and_reserved_t_eq_zero_iff]
  · rintro rfl; exact hmk c d

/-- A tag operand put into a word gives back the two bytes it was read from. -/
theorem wordOfBytes_append (x y : Byte) :
    wordOfBytes x y ((c ++ d : BitVec 16).extractLsb 15 8) ((c ++ d : BitVec 16).extractLsb 7 0) = wordOfBytes x y c d := by
  have hhi : (c ++ d : BitVec 16).extractLsb 15 8 = c := BitVec.extractLsb'_append_eq_left
  have hlo : (c ++ d : BitVec 16).extractLsb 7 0 = d := BitVec.extractLsb'_append_eq_right
  rw [hhi, hlo]

theorem formatT_rightAnswer {mk : Half → Instr} (hf : opMap.lookup a = some .t)
    (hmk : ∀ t, encode (mk t) = wordOfBytes a 0 (t.extractLsb 15 8) (t.extractLsb 7 0)) :
    rightAnswer (wordOfBytes a b c d) (formatT (wordOfBytes a b c d) mk) := by
  rw [formatT_wordOfBytes]
  refine rightAnswer_ite ?_ ?_
  · rw [illegalWord_iff_reserved_bit hf nofun, and_reserved_t_eq_zero_iff]
  · rintro rfl; exact (hmk _).trans (wordOfBytes_append c d a 0)

theorem formatTS_rightAnswer {mk : Bool → Half → Instr} (hf : opMap.lookup a = some .ts)
    (hmk : ∀ s t, encode (mk s t) = wordOfBytes a (if s then 1 else 0) (t.extractLsb 15 8) (t.extractLsb 7 0)) :
    rightAnswer (wordOfBytes a b c d) (formatTS (wordOfBytes a b c d) mk) := by
  have hill : illegalWord (wordOfBytes a b c d) = true ↔ ¬ (b = 0#8 ∨ b = 1#8) := by
    rw [illegalWord_iff_reserved_bit hf nofun, and_reserved_ts_eq_zero_iff]
  rw [formatTS_wordOfBytes]
  by_cases h0 : b = 0#8
  · subst h0
    exact .inr ⟨by simpa using hill, mk false _, rfl, (hmk false _).trans (wordOfBytes_append c d a 0)⟩
  · rw [if_neg h0]
    refine rightAnswer_ite (by simpa [h0] using hill) ?_
    rintro rfl; exact (hmk true _).trans (wordOfBytes_append c d a 1)

/-- Of the words that set no reserved bit, the one with TYPE `0b11` is the illegal one (R77). -/
theorem formatA_rightAnswer :
    rightAnswer (wordOfBytes 0x08#8 b c d) (formatA (wordOfBytes 0x08#8 b c d) .generateAc) := by
  rw [formatA_wordOfBytes]
  by_cases h : b.toNat < 4 ∧ c = 0#8 ∧ d = 0#8
  · rw [if_pos h]
    obtain ⟨hb, rfl, rfl⟩ := h
    obtain rfl | rfl | rfl | rfl : b = 0b00#8 ∨ b = 0b01#8 ∨ b = 0b10#8 ∨ b = 0b11#8 := by bv_omega
    · exact .inr ⟨rfl, .generateAc .aac, rfl, rfl⟩
    · exact .inr ⟨rfl, .generateAc .arqc, rfl, rfl⟩
    · exact .inr ⟨rfl, .generateAc .tc, rfl, rfl⟩
    · exact .inl ⟨rfl, .reservedType, rfl⟩
  · have hset := mt (and_reserved_a_eq_zero_iff 0x08#8 b c d).mp h
    exact .inl ⟨illegalWord_of_reserved_bit rfl hset, .reservedBits, if_neg h⟩

end

/-- R76, R78: the decoder rejects the illegal words, and gives every other word the request that encodes to it. -/
theorem decode_rightAnswer (w : Word) : rightAnswer w (decode w) := by
  obtain ⟨a, b, c, d, rfl⟩ := exists_wordOfBytes w
  have op {n : Byte} (h : a.toNat = n.toNat) : a = n := BitVec.eq_of_toNat_eq h
  rw [decode, opOf_wordOfBytes]
  split
  next h => obtain rfl := op (n := 0x01) h; exact formatN_rightAnswer b c d rfl rfl
  next h => obtain rfl := op (n := 0x02) h; exact formatL_rightAnswer b c d rfl fun _ => rfl
  next h => obtain rfl := op (n := 0x03) h; exact formatT_rightAnswer b c d rfl fun _ => rfl
  next h => obtain rfl := op (n := 0x04) h; exact formatTS_rightAnswer b c d rfl fun _ _ => rfl
  next h => obtain rfl := op (n := 0x05) h; exact formatN_rightAnswer b c d rfl rfl
  next h => obtain rfl := op (n := 0x06) h; exact formatBytes_rightAnswer b c d (f := .r) rfl nofun rfl fun _ _ => rfl
  next h => obtain rfl := op (n := 0x07) h; exact formatN_rightAnswer b c d rfl rfl
  next h => obtain rfl := op (n := 0x08) h; exact formatA_rightAnswer b c d
  next h => obtain rfl := op (n := 0x09) h; exact formatN_rightAnswer b c d rfl rfl
  next h => obtain rfl := op (n := 0x0A) h; exact formatN_rightAnswer b c d rfl rfl
  next h => obtain rfl := op (n := 0x0B) h; exact formatN_rightAnswer b c d rfl rfl
  next h => obtain rfl := op (n := 0x0C) h; exact formatN_rightAnswer b c d rfl rfl
  next h => obtain rfl := op (n := 0x0D) h; exact formatN_rightAnswer b c d rfl rfl
  next h => obtain rfl := op (n := 0x0E) h; exact formatL_rightAnswer b c d rfl fun _ => rfl
  next h => obtain rfl := op (n := 0x10) h; exact formatN_rightAnswer b c d rfl rfl
  next h => obtain rfl := op (n := 0x11) h; exact formatBytes_rightAnswer b c d (f := .s) rfl nofun rfl fun _ _ => rfl
  next h => obtain rfl := op (n := 0x12) h; exact formatN_rightAnswer b c d rfl rfl
  next =>
    refine .inl ⟨illegalWord_of_unassigned ((wordFormat_wordOfBytes a b c d).trans ?_), .unassignedOp, rfl⟩
    rw [List.lookup_eq_none_iff]
    simp_all [opMap, opRow, bits_eq_iff_toNat]

/-- Settles O2: the request of a right answer encodes to the word. -/
theorem encodeOfDecodedWordIsTheWord : Obligations.EncodeOfDecodedWordIsTheWord := by
  intro w i h
  obtain ⟨-, e, he⟩ | ⟨-, j, hj, hw⟩ := decode_rightAnswer w
  · cases h.symm.trans he
  · cases h.symm.trans hj; exact hw

/-- R76: the rejected words are the illegal ones. -/
theorem decode_error_iff (w : Word) : (∃ e, decode w = .error e) ↔ illegalWord w = true := by
  obtain ⟨hill, he⟩ | ⟨hlegal, j, hj, -⟩ := decode_rightAnswer w
  · exact iff_of_true he hill
  · simp [hj, hlegal]

/-- Settles O3: a right answer is an error exactly on an illegal word, and the Block answers any such error alike. -/
theorem illegalWordOnlySetsErr : Obligations.IllegalWordOnlySetsErr := by
  refine ⟨decode_error_iff, fun s hv hd hill => ?_⟩
  obtain ⟨e, he⟩ := (decode_error_iff s.req).mpr hill
  have ha : accepts s = true := (accepts_iff s).mpr ⟨hv, hd⟩
  calc step s = acceptRequest s := by simp [step, ha]
    _ = .next { s with reqValid := false, err := .illegalRequest } := by rw [acceptRequest, he]; rfl

/-- Settles O1: the fields of a word written out of four bytes are those bytes. -/
theorem decodeOfEncodeIsTheRequest : Obligations.DecodeOfEncodeIsTheRequest := by
  intro i
  cases i with
  | getResponse len => simp [encode, decode, formatL_wordOfBytes]
  | getData tag => simpa [encode, decode, formatT_wordOfBytes] using half_bytes tag
  | putData secure tag => cases secure <;> simpa [encode, decode, formatTS_wordOfBytes] using half_bytes tag
  | readRecord record sfi => simp [encode, decode, formatBytes_wordOfBytes]
  | generateAc type => cases type <;> rfl
  | withLength len => simp [encode, decode, formatL_wordOfBytes]
  | decodeStatus sw1 sw2 => simp [encode, decode, formatBytes_wordOfBytes]
  | _ => rfl

end Sys2Proof.Machine

/-! ## Serialisation -/

namespace Sys2Proof.Machine

theorem optByte_eq_toList (o : Option Byte) : optByte o = o.toList := by cases o <;> rfl

theorem optByte_length (o : Option Byte) : (optByte o).length = if o.isSome then 1 else 0 := by cases o <;> rfl

theorem serialize_eq (c : Command) :
    serialize c = [c.cla, c.ins, c.p1, c.p2] ++ c.lc.toList ++ c.data.getD [] ++ c.le.toList := by
  rw [serialize, optByte_eq_toList, optByte_eq_toList]

/-- Settles O9: R71 field by field; the bound is the sum of the fields' own. -/
theorem serializedCommandLayout : Obligations.SerializedCommandLayout := by
  refine fun c => ⟨serialize_eq c, fun _ => rfl, ?_, serialize_length_le⟩
  simp only [serialize, List.length_append, optByte_length, List.length_cons, List.length_nil]

end Sys2Proof.Machine

/-! ## The assembler -/

namespace Sys2Proof.Machine

/-- Settles O56: the operand that the line drives is read back by `dinOperand_dinOf`. -/
theorem assembledLineLoadsItsOperand : Obligations.AssembledLineLoadsItsOperand := by
  refine fun l i o h => ⟨?_, ?_, ?_⟩
  · rintro rfl; simp [assemble, h]
  · rintro b rfl hb
    refine ⟨BitVec.ofNat 8 b.length, dinOf b, ?_, fun s => dinOperand_dinOf s b hb⟩
    simp [assemble, h, Nat.not_lt.mpr hb]
  · rintro b rfl hb; simp [assemble, h, hb]

/-- The first line of every pseudo-instruction is a builder's (R80, R223). -/
theorem expandPseudo_builds (p : Pseudo) :
    ∃ l sh, expandPseudo p = [l, .exchange] ∧ builtShape (lineParts l).1 = some sh := by
  cases p <;> exact ⟨_, _, rfl, rfl⟩

/-- Settles O57: the expansions are the table of R80 and the lines of R81. -/
theorem pseudoInstructionsBuildThenExchange : Obligations.PseudoInstructionsBuildThenExchange := by
  refine ⟨⟨fun _ => rfl, fun _ => rfl, fun _ _ _ => rfl, fun _ _ => rfl, fun _ => rfl, rfl, fun _ _ => rfl, fun _ => rfl,
      fun _ => rfl, fun _ => rfl, fun _ => rfl⟩,
    expandPseudo_builds, fun _ => rfl, rfl, fun _ _ => rfl, fun _ _ => rfl, fun _ => rfl, fun b => ?_, fun _ => rfl,
    fun _ _ => rfl, rfl⟩
  rw [expandText, tagCode, BitVec.ofNat_toNat]

end Sys2Proof.Machine

/-! ## Byte utilities -/

namespace Sys2Proof.Machine

/-- Settles O8: each operation's value as a number (R100 to R102), and the inverse laws that follow from it (R103). -/
theorem byteUtilityLaws : Obligations.ByteUtilityLaws :=
  ⟨fun v => ⟨hi_toNat v, lo_toNat v, combine_hi_lo v⟩,
    fun a b => ⟨combine_toNat a b, hi_combine a b, lo_combine a b⟩⟩

end Sys2Proof.Machine

/-! ## Builder requests -/

namespace Sys2Proof.Machine

/-! The words of a row, told by `OP` alone (R75, R78). -/

/-- A request whose own word lies in a format-N row is the request of that row (R73, R75). -/
theorem decodesN_of_row {i : Instr} (hrow : opMap.lookup (opOf (encode i)) = some .n) : decodesN (opOf (encode i)) i := by
  cases i with
  | getResponse | getData | putData | readRecord | generateAc | withLength | decodeStatus =>
    rw [encode, opOf_wordOfBytes] at hrow; cases hrow
  | _ => intro w hop; rw [decode, opOf, hop]; rfl

/-- R77: the four TYPE codes of format A. -/
theorem formatA_eq (w : Word) (mk : CryptogramType → Instr) :
    formatA w mk =
      if w.extractLsb 23 18 = 0#6 ∧ w.extractLsb 15 0 = 0#16 then
        if w.extractLsb 17 16 = 0b00#2 then .ok (mk .aac)
        else if w.extractLsb 17 16 = 0b01#2 then .ok (mk .arqc)
        else if w.extractLsb 17 16 = 0b10#2 then .ok (mk .tc)
        else .error .reservedType
      else .error .reservedBits := by
  refine if_congr Iff.rfl ?_ rfl
  rw [typeOfCode]
  split_ifs <;> rfl

/-! The Command of a data-taking builder. -/

/-- R110: Lc is `DIN_LEN` and the data are `DIN[0..DIN_LEN)`. -/
theorem dataCommand_dinOperand (name : Op) (h : Header) (s : State) :
    dataCommand name h (dinOperand s) =
      ⟨name, h.cla, h.ins, h.p1, h.p2, some s.dinLen, some (s.din.toList.take s.dinLen.toNat), none⟩ := by
  rw [dataCommand, dinOperand_lc, dinOperand]

/-- What a request that builds over the data operand answers, with the Command written out. -/
theorem exec_eq_of_dataCommand {i : Instr} {s : State} (name : Op) (h : Header)
    (he : exec i s = .next (build (dataCommand name h (dinOperand s)) s)) :
    exec i s = .next
      { s with
        cmd := ⟨name, h.cla, h.ins, h.p1, h.p2, some s.dinLen, some (s.din.toList.take s.dinLen.toNat), none⟩,
        cmdValid := true, err := .none } := by
  rw [he, dataCommand_dinOperand, build]

theorem hi_eq_ofNat (v : Half) : hi v = BitVec.ofNat 8 (v.toNat / 256) := by
  rw [← hi_toNat, BitVec.ofNat_toNat, BitVec.setWidth_eq]

theorem lo_eq_ofNat (v : Half) : lo v = BitVec.ofNat 8 (v.toNat % 256) := by
  rw [← lo_toNat, BitVec.ofNat_toNat, BitVec.setWidth_eq]

/-- The data-taking builders are those that put the data operand under a header (R110). -/
theorem exec_of_takesData {i : Instr} (htakes : takesData i = true) (s : State) :
    ∃ name h, exec i s = .next (build (dataCommand name h (dinOperand s)) s) := by
  cases i with
  | select => exact ⟨.select, ⟨0x00, 0xA4, 0x04, 0x00⟩, rfl⟩
  | putData secure tag => exact ⟨.putData, ⟨putDataClass s.cfg secure, s.cfg.insPutData, hi tag, lo tag⟩, rfl⟩
  | externalAuthenticate => exact ⟨.externalAuthenticate, s.cfg.hdrExternalAuthenticate, rfl⟩
  | generateAc type =>
    exact ⟨.generateAc, ⟨s.cfg.claGenerateAc, s.cfg.insGenerateAc, refControl s.cfg type, s.cfg.p2GenerateAc⟩, rfl⟩
  | resetPinTryCounter => exact ⟨.resetPinTryCounter, s.cfg.hdrResetPinTryCounter, rfl⟩
  | offlineChangePin => exact ⟨.offlineChangePin, s.cfg.hdrOfflineChangePin, rfl⟩
  | verify => exact ⟨.verify, s.cfg.hdrVerify, rfl⟩
  | applicationBlock => exact ⟨.applicationBlock, s.cfg.hdrApplicationBlock, rfl⟩
  | applicationUnblock => exact ⟨.applicationUnblock, s.cfg.hdrApplicationUnblock, rfl⟩
  | _ => cases htakes

/-- R126: the wire bytes over the data operand, and how many they are. -/
theorem serialize_dataCommand_dinOperand (name : Op) (h : Header) (s : State) :
    serialize (dataCommand name h (dinOperand s)) = [h.cla, h.ins, h.p1, h.p2] ++ [s.dinLen] ++ dinOperand s ∧
    (serialize (dataCommand name h (dinOperand s))).length = 5 + s.dinLen.toNat := by
  have hbytes := serialize_dataCommand name h (dinOperand s)
  rw [dinOperand_lc] at hbytes
  refine ⟨hbytes, ?_⟩
  rw [hbytes, List.length_append, dinOperand_length]; rfl

/-- R72: the shapes with Le. -/
theorem shapeOf_of_le {c : Command} {sh : Shape} (h : shapeOf c = some sh) (hle : c.le.isSome = true) :
    sh = .headerLe ∨ sh = .headerLcDataLe := by
  obtain ⟨name, cla, ins, p1, p2, lc, data, le⟩ := c
  obtain ⟨n, rfl⟩ := Option.isSome_iff_exists.mp hle
  cases lc <;> cases data <;> cases h
  · exact .inl rfl
  · exact .inr rfl

/-- R126: of the builders only GET_RESPONSE has a shape with Le. -/
theorem eq_getResponse_of_builtShape {i : Instr} {sh : Shape} (h : builtShape i = some sh)
    (hsh : sh = .headerLe ∨ sh = .headerLcDataLe) : ∃ n, i = .getResponse n := by
  cases i with
  | getResponse n => exact ⟨n, rfl⟩
  | _ => obtain rfl | rfl := hsh <;> cases h

/-- Settles O19: `exec_builder` gives the Command of each builder; where it takes data, it is a `dataCommand` over the
data operand. -/
theorem everyBuilderWritesOnlyTheCommand : Obligations.EveryBuilderWritesOnlyTheCommand := by
  refine ⟨fun i sh s hi => ?_, fun n s hv => ?_⟩
  · obtain ⟨c, he, hok, hshape⟩ := exec_builder i sh s hi
    refine ⟨c, he, hok, hshape, rfl, fun hle => eq_getResponse_of_builtShape hi (shapeOf_of_le hshape hle), fun hdata => ?_⟩
    obtain ⟨name, h, hdin⟩ := exec_of_takesData hdata s
    obtain rfl : c = dataCommand name h (dinOperand s) := by
      have hnext := he.symm.trans hdin
      injection hnext with hbuild
      exact congrArg State.cmd hbuild
    obtain ⟨hbytes, hlen⟩ := serialize_dataCommand_dinOperand name h s
    exact ⟨congrArg some (dinOperand_lc s), rfl, hbytes, hlen⟩
  · exact ⟨withLength s.cmd n, exec_withLength_of_valid hv, commandOk_of_no_data _ rfl, rfl, rfl, rfl⟩

/-- Settles O10: the data operand under the source's own header. -/
theorem selectWritesItsCommand : Obligations.SelectWritesItsCommand :=
  ⟨decodesN_of_row (i := .select) rfl, fun _ => exec_eq_of_dataCommand .select ⟨0x00, 0xA4, 0x04, 0x00⟩ rfl⟩

/-- Settles O11: row 02 of the decoder and the definition of the builder. -/
theorem getResponseWritesItsCommand : Obligations.GetResponseWritesItsCommand := by
  refine ⟨fun w hop => ?_, fun n s => rfl⟩
  rw [decode, opOf, hop]; rfl

/-- Settles O12: the tag's bytes are its quotient and remainder by 256. -/
theorem headerOnlyBuildersWriteTheirCommand : Obligations.HeaderOnlyBuildersWriteTheirCommand := by
  refine ⟨fun w hop => ?_, fun w hop => ?_, fun tag s => ?_, fun record sfi s => rfl⟩
  · rw [decode, opOf, hop]; rfl
  · rw [decode, opOf, hop]; rfl
  · rw [← hi_eq_ofNat, ← lo_eq_ofNat]; rfl

/-- Settles O13: the data operand under a header whose CLA follows SEC and whose P1 and P2 are the tag. -/
theorem putDataWritesItsCommand : Obligations.PutDataWritesItsCommand := by
  refine ⟨fun w hop => ?_, fun tag s => ?_⟩
  · rw [decode, opOf, hop]; rfl
  · rw [← hi_eq_ofNat, ← lo_eq_ofNat]
    exact ⟨exec_eq_of_dataCommand .putData ⟨s.cfg.claPutSecure, s.cfg.insPutData, hi tag, lo tag⟩ rfl,
      exec_eq_of_dataCommand .putData ⟨s.cfg.claPutPlain, s.cfg.insPutData, hi tag, lo tag⟩ rfl⟩

/-- Settles O14: the body is the parameter, so Lc is its length 2 in every state. -/
theorem getProcessingOptionsWritesItsCommand : Obligations.GetProcessingOptionsWritesItsCommand :=
  ⟨decodesN_of_row (i := .getProcessingOptions) rfl, fun _ => rfl⟩

/-- Settles O15: the data operand under each request's configured header. -/
theorem authenticateAndVerifyWriteTheirCommand : Obligations.AuthenticateAndVerifyWriteTheirCommand :=
  ⟨decodesN_of_row (i := .externalAuthenticate) rfl, decodesN_of_row (i := .verify) rfl, fun s =>
    ⟨exec_eq_of_dataCommand .externalAuthenticate s.cfg.hdrExternalAuthenticate rfl,
      exec_eq_of_dataCommand .verify s.cfg.hdrVerify rfl⟩⟩

/-- Settles O16: each type's reference-control byte is P1 (R119), and `formatA_eq` gives the words. -/
theorem generateAcWritesItsCommand : Obligations.GenerateAcWritesItsCommand := by
  refine ⟨fun t rc s hrc => ?_, fun w hop => ?_⟩
  · obtain rfl : refControl s.cfg t = rc := by obtain ⟨rfl, rfl⟩ | ⟨rfl, rfl⟩ | ⟨rfl, rfl⟩ := hrc <;> rfl
    exact exec_eq_of_dataCommand .generateAc
      ⟨s.cfg.claGenerateAc, s.cfg.insGenerateAc, refControl s.cfg t, s.cfg.p2GenerateAc⟩ rfl
  · rw [← formatA_eq, decode, opOf, hop]; rfl

/-- Settles O17: the data operand under each request's configured header. -/
theorem pinBuildersWriteTheirCommand : Obligations.PinBuildersWriteTheirCommand :=
  ⟨decodesN_of_row (i := .resetPinTryCounter) rfl, decodesN_of_row (i := .offlineChangePin) rfl, fun s =>
    ⟨exec_eq_of_dataCommand .resetPinTryCounter s.cfg.hdrResetPinTryCounter rfl,
      exec_eq_of_dataCommand .offlineChangePin s.cfg.hdrOfflineChangePin rfl⟩⟩

/-- Settles O18: the data operand under each request's configured header. -/
theorem applicationBuildersWriteTheirCommand : Obligations.ApplicationBuildersWriteTheirCommand :=
  ⟨decodesN_of_row (i := .applicationBlock) rfl, decodesN_of_row (i := .applicationUnblock) rfl, fun s =>
    ⟨exec_eq_of_dataCommand .applicationBlock s.cfg.hdrApplicationBlock rfl,
      exec_eq_of_dataCommand .applicationUnblock s.cfg.hdrApplicationUnblock rfl⟩⟩

/-- Settles O20: the two answers of WITH_LENGTH are known; the corner cases read off the five wire bytes (R125). -/
theorem withLengthReplacesLcAndDropsData : Obligations.WithLengthReplacesLcAndDropsData := by
  refine ⟨fun w hop => ?_, fun n s hv => exec_withLength_of_valid hv, fun n s hv => exec_withLength_of_not_valid hv,
    serialize_withLength, fun aid n => serialize_withLength (cmdSelect aid) n, fun c m n => ?_, fun _ _ _ => rfl⟩
  · rw [decode, opOf, hop]; rfl
  · exact (serialize_withLength (cmdGetResponse c m) n).trans (serialize_cmdGetResponse c n).symm

end Sys2Proof.Machine

/-! ## Status words -/

namespace Sys2Proof.Machine

/-- The fixed table of R150 and R153 as rows. -/
def statusRows : List (Half × Status) :=
  [(0x6283, .selectedFileInvalidated), (0x6700, .wrongLength), (0x6982, .securityConditionNotSatisfied),
   (0x6985, .conditionsOfUseNotSatisfied), (0x6A82, .fileNotFound), (0x6A88, .referencedDataNotFound),
   (0x6D00, .instructionCodeNotSupported), (0x9000, .ok)]

/-- `statusTable` answers a row's Status on the row's word and `Unknown` off the rows (R154). -/
theorem statusTable_cases (code : Half) :
    (code, statusTable code) ∈ statusRows ∨ (statusTable code = .unknown ∧ code ∉ statusRows.map Prod.fst) := by
  have word {n : Half} (h : code.toNat = n.toNat) : code = n := BitVec.eq_of_toNat_eq h
  rw [statusTable]
  split
  next h => exact .inl (by simp [statusRows, word (n := 0x6283) h])
  next h => exact .inl (by simp [statusRows, word (n := 0x6700) h])
  next h => exact .inl (by simp [statusRows, word (n := 0x6982) h])
  next h => exact .inl (by simp [statusRows, word (n := 0x6985) h])
  next h => exact .inl (by simp [statusRows, word (n := 0x6A82) h])
  next h => exact .inl (by simp [statusRows, word (n := 0x6A88) h])
  next h => exact .inl (by simp [statusRows, word (n := 0x6D00) h])
  next h => exact .inl (by simp [statusRows, word (n := 0x9000) h])
  next => exact .inr ⟨rfl, by simp_all [statusRows, bits_eq_iff_toNat]⟩

/-- Every row is the table's own, and it gives neither `Unknown` nor a continuation and does not begin with 61 or 6C. -/
theorem statusRows_sound : ∀ r ∈ statusRows, statusTable r.1 = r.2 ∧ r.2 ≠ .unknown ∧ isContinuation r.2 = false ∧
    hi r.1 ≠ 0x61 ∧ hi r.1 ≠ 0x6C := by decide

theorem statusTable_eq_iff {st : Status} (hst : st ≠ .unknown) (code : Half) :
    statusTable code = st ↔ (code, st) ∈ statusRows := by
  refine ⟨?_, fun h => (statusRows_sound _ h).1⟩
  rintro rfl
  exact (statusTable_cases code).resolve_right fun h => hst h.1

theorem statusTable_eq_unknown_iff (code : Half) : statusTable code = .unknown ↔ code ∉ statusRows.map Prod.fst := by
  obtain h | ⟨hu, hn⟩ := statusTable_cases code
  · obtain ⟨-, hknown, -⟩ := statusRows_sound _ h
    exact iff_of_false hknown (not_not.mpr (List.mem_map_of_mem h))
  · exact iff_of_true hu hn

/-- The table holds no continuation (R156). -/
theorem isContinuation_statusTable (code : Half) : isContinuation (statusTable code) = false := by
  obtain h | ⟨hu, -⟩ := statusTable_cases code
  · obtain ⟨-, -, hcont, -⟩ := statusRows_sound _ h; exact hcont
  · rw [hu]; rfl

/-- R150, R249: 61 is told first, then 6C, then the table. -/
theorem decodeStatus_cases (sw1 sw2 : Byte) :
    (sw1 = 0x61 ∧ decodeStatus sw1 sw2 = .responseAvailable sw2) ∨
    (sw1 = 0x6C ∧ decodeStatus sw1 sw2 = .wrongLengthLe sw2) ∨
    (sw1 ≠ 0x61 ∧ sw1 ≠ 0x6C ∧ decodeStatus sw1 sw2 = statusTable (combine sw1 sw2)) := by
  rw [decodeStatus]
  split_ifs with h61 h6C
  · exact .inl ⟨h61, rfl⟩
  · exact .inr (.inl ⟨h6C, rfl⟩)
  · exact .inr (.inr ⟨h61, h6C, rfl⟩)

theorem isContinuation_decodeStatus_iff (sw1 sw2 : Byte) :
    isContinuation (decodeStatus sw1 sw2) = true ↔ sw1 = 0x61 ∨ sw1 = 0x6C := by
  obtain ⟨h61, h⟩ | ⟨h6C, h⟩ | ⟨h61, h6C, h⟩ := decodeStatus_cases sw1 sw2
  · rw [h]; exact iff_of_true rfl (.inl h61)
  · rw [h]; exact iff_of_true rfl (.inr h6C)
  · rw [h, isContinuation_statusTable]; exact iff_of_false nofun (not_or.mpr ⟨h61, h6C⟩)

theorem decodeStatus_eq_responseAvailable_iff (sw1 sw2 n : Byte) :
    decodeStatus sw1 sw2 = .responseAvailable n ↔ sw1 = 0x61 ∧ sw2 = n := by
  refine ⟨fun hst => ?_, by rintro ⟨rfl, rfl⟩; rfl⟩
  obtain rfl | rfl := (isContinuation_decodeStatus_iff sw1 sw2).mp (congrArg isContinuation hst)
  · exact ⟨rfl, Status.responseAvailable.inj hst⟩
  · cases hst

theorem decodeStatus_eq_wrongLengthLe_iff (sw1 sw2 n : Byte) :
    decodeStatus sw1 sw2 = .wrongLengthLe n ↔ sw1 = 0x6C ∧ sw2 = n := by
  refine ⟨fun hst => ?_, by rintro ⟨rfl, rfl⟩; rfl⟩
  obtain rfl | rfl := (isContinuation_decodeStatus_iff sw1 sw2).mp (congrArg isContinuation hst)
  · cases hst
  · exact ⟨rfl, Status.wrongLengthLe.inj hst⟩

/-- A Status that is no continuation comes from the table. -/
theorem decodeStatus_eq_iff_statusTable {st : Status} (hst : isContinuation st = false) (sw1 sw2 : Byte) :
    decodeStatus sw1 sw2 = st ↔ sw1 ≠ 0x61 ∧ sw1 ≠ 0x6C ∧ statusTable (combine sw1 sw2) = st := by
  obtain ⟨rfl, h⟩ | ⟨rfl, h⟩ | ⟨h61, h6C, h⟩ := decodeStatus_cases sw1 sw2
  · rw [h]; exact iff_of_false (by rintro rfl; cases hst) (fun hr => hr.1 rfl)
  · rw [h]; exact iff_of_false (by rintro rfl; cases hst) (fun hr => hr.2.1 rfl)
  · rw [h, and_iff_right h61, and_iff_right h6C]

/-- A Status with one row is the result for that row's two bytes only. -/
theorem decodeStatus_eq_iff_of_row {st : Status} {b1 b2 : Byte}
    (hrow : ∀ code, (code, st) ∈ statusRows ↔ code = combine b1 b2) (sw1 sw2 : Byte) :
    decodeStatus sw1 sw2 = st ↔ sw1 = b1 ∧ sw2 = b2 := by
  obtain ⟨-, hunknown, hcont, h61, h6C⟩ := statusRows_sound _ ((hrow _).mpr rfl)
  rw [hi_combine] at h61 h6C
  rw [decodeStatus_eq_iff_statusTable hcont, statusTable_eq_iff hunknown, hrow]
  refine ⟨fun ⟨_, _, hcode⟩ => ⟨?_, ?_⟩, by rintro ⟨rfl, rfl⟩; exact ⟨h61, h6C, rfl⟩⟩
  · simpa [hi_combine] using congrArg hi hcode
  · simpa [lo_combine] using congrArg lo hcode

/-- Settles O21: 61 and 6C by themselves, each fixed Status by its one row, `Unknown` off the rows. -/
theorem statusWordMapping : Obligations.StatusWordMapping := by
  intro sw1 sw2
  refine ⟨decodeStatus_eq_responseAvailable_iff sw1 sw2, decodeStatus_eq_wrongLengthLe_iff sw1 sw2,
    decodeStatus_eq_iff_of_row ?_ _ _, decodeStatus_eq_iff_of_row ?_ _ _, decodeStatus_eq_iff_of_row ?_ _ _,
    decodeStatus_eq_iff_of_row ?_ _ _, decodeStatus_eq_iff_of_row ?_ _ _, decodeStatus_eq_iff_of_row ?_ _ _,
    decodeStatus_eq_iff_of_row ?_ _ _, decodeStatus_eq_iff_of_row ?_ _ _, ?unknown, isContinuation_decodeStatus_iff sw1 sw2⟩
  case unknown => rw [decodeStatus_eq_iff_statusTable rfl, statusTable_eq_unknown_iff]; rfl
  all_goals simp [statusRows, combine]

/-- Settles O23: the definition of the request, and row 11 of the decoder. -/
theorem decodeStatusRequestRecordsTheStatus : Obligations.DecodeStatusRequestRecordsTheStatus := by
  refine ⟨fun _ _ _ => rfl, fun w hop => ?_⟩
  rw [decode, opOf, hop]; rfl

end Sys2Proof.Machine

/-! ## TLV codec -/

namespace Sys2Proof.Machine

/-! The two tag tables. -/

/-- R173: a 1-byte tag is found without the second byte. -/
theorem resolveTag_of_one {c : Config} {x : Byte} {k : TagClass} (h : c.tags1.lookup x = some k) (y : Byte) :
    resolveTag c x y = some (.one x, k) := by
  simp only [resolveTag, tagClass, h]

/-- R173: past the 1-byte table, the pair is looked up in the 2-byte table. -/
theorem resolveTag_of_not_one {c : Config} {x : Byte} (h : c.tags1.lookup x = none) (y : Byte) :
    resolveTag c x y = (c.tags2.lookup (combine x y)).map (TagId.two (combine x y), ·) := by
  simp only [resolveTag, tagClass, h]
  cases c.tags2.lookup (combine x y) <;> rfl

/-! One turn of the loop and its measure. -/

section

variable {c : Config} {f : List Byte} {stack : List (List Byte)} {p : TlvPiece} {e : TlvError}

theorem stackMeasure_cons (f : List Byte) (stack : List (List Byte)) :
    stackMeasure (f :: stack) = 3 * f.length + 1 + stackMeasure stack := by
  simp [stackMeasure]; omega

theorem tlvDecode_eq_tlvLoop (c : Config) (buf : List Byte) : tlvDecode c buf = tlvLoop c (stackMeasure [buf]) [buf] [] := by
  rw [stackMeasure_cons]; rfl

theorem ne_nil_of_readPiece (hp : readPiece c f = .ok p) : f ≠ [] := by rintro rfl; cases hp

theorem tlvLoop_of_error (hf : f ≠ []) (hp : readPiece c f = .error e) (n : Nat) (out : List TlvRecord) :
    tlvLoop c (n + 1) (f :: stack) out = .error e := by
  simp only [tlvLoop_piece c n f stack out hf, hp]

theorem tlvLoop_of_primitive (hp : readPiece c f = .ok p) (hk : p.cls = .primitive) (n : Nat) (out : List TlvRecord) :
    tlvLoop c (n + 1) (f :: stack) out = tlvLoop c n (p.rest :: stack) (out ++ [p.record]) := by
  simp only [tlvLoop_piece c n f stack out (ne_nil_of_readPiece hp), hp, hk]

theorem tlvLoop_of_constructed (hp : readPiece c f = .ok p) (hk : p.cls = .constructed) (n : Nat) (out : List TlvRecord) :
    tlvLoop c (n + 1) (f :: stack) out = tlvLoop c n (descend c.siblings p stack) out := by
  simp only [tlvLoop_piece c n f stack out (ne_nil_of_readPiece hp), hp, hk]

/-- A header takes at least two bytes off its frame (R176). -/
theorem readPiece_length (hp : readPiece c f = .ok p) : p.record.value.length + p.rest.length + 2 ≤ f.length := by
  obtain ⟨hf, -, -⟩ := readPiece_ok hp
  have hlen := congrArg List.length hf
  have hpos := tagWidth_pos p.record.tag
  rw [List.length_append, recordBytes_length] at hlen
  omega

/-- The turn of a primitive record lowers the measure (R182 (b)). -/
theorem stackMeasure_rest_lt (hp : readPiece c f = .ok p) (stack : List (List Byte)) :
    stackMeasure (p.rest :: stack) < stackMeasure (f :: stack) := by
  have hlen := readPiece_length hp
  simp only [stackMeasure_cons]; omega

/-- The turn of a template lowers the measure, whichever frames it keeps (R182 (b)). -/
theorem stackMeasure_descend_lt (hp : readPiece c f = .ok p) (m : Siblings) (stack : List (List Byte)) :
    stackMeasure (descend m p stack) < stackMeasure (f :: stack) := by
  have hlen := readPiece_length hp
  have hnil : stackMeasure [] = 0 := rfl
  cases m <;> simp only [descend, stackMeasure_cons] <;> omega

/-- Induction along the turns of R180. A template also gives the hypothesis for the level it interrupts. -/
theorem stack_induction (c : Config) {motive : List (List Byte) → Prop} (done : motive [])
    (exhausted : ∀ stack, motive stack → motive ([] :: stack))
    (error : ∀ f stack e, f ≠ [] → readPiece c f = .error e → motive (f :: stack))
    (primitive : ∀ f stack p, readPiece c f = .ok p → p.cls = .primitive → motive (p.rest :: stack) → motive (f :: stack))
    (constructed : ∀ f stack p, readPiece c f = .ok p → p.cls = .constructed → motive (descend c.siblings p stack) →
      motive (p.rest :: stack) → motive (f :: stack))
    (stack : List (List Byte)) : motive stack := by
  match stack with
  | [] => exact done
  | [] :: stack => exact exhausted stack (stack_induction c done exhausted error primitive constructed stack)
  | (b :: f) :: stack =>
    cases hp : readPiece c (b :: f) with
    | error e => exact error _ stack e (List.cons_ne_nil b f) hp
    | ok p =>
      have hlt := stackMeasure_rest_lt hp stack
      have hlt' := stackMeasure_descend_lt hp c.siblings stack
      have hrest := stack_induction c done exhausted error primitive constructed (p.rest :: stack)
      cases hk : p.cls with
      | primitive => exact primitive _ stack p hp hk hrest
      | constructed =>
        exact constructed _ stack p hp hk
          (stack_induction c done exhausted error primitive constructed (descend c.siblings p stack)) hrest
termination_by stackMeasure stack
decreasing_by
  · rw [stackMeasure_cons]; omega
  · exact hlt
  · exact hlt'

/-! What a stack of frames decodes to, without the bound and without the output so far. -/

/-- Bounds of at least the measure give the same result, and the output so far only stands before it. -/
theorem tlvLoop_eq_map (c : Config) (stack : List (List Byte)) : ∀ {n m : Nat} (out : List TlvRecord),
    stackMeasure stack ≤ n → stackMeasure stack ≤ m →
    tlvLoop c n stack out = (out ++ ·) <$> tlvLoop c m stack [] := by
  have turn {f : List Byte} {stack : List (List Byte)} {n m : Nat} (hn : stackMeasure (f :: stack) ≤ n)
      (hm : stackMeasure (f :: stack) ≤ m) : ∃ n' m', n = n' + 1 ∧ m = m' + 1 := by
    rw [stackMeasure_cons] at hn hm
    exact ⟨n - 1, m - 1, by omega, by omega⟩
  induction stack using stack_induction c with
  | done => intro n m out _ _; simp
  | exhausted stack ih =>
    intro n m out hn hm
    obtain ⟨n, m, rfl, rfl⟩ := turn hn hm
    rw [stackMeasure_cons] at hn hm
    exact ih out (by omega) (by omega)
  | error f stack e hf hp =>
    intro n m out hn hm
    obtain ⟨n, m, rfl, rfl⟩ := turn hn hm
    rw [tlvLoop_of_error hf hp, tlvLoop_of_error hf hp]; rfl
  | primitive f stack p hp hk ih =>
    intro n m out hn hm
    obtain ⟨n, m, rfl, rfl⟩ := turn hn hm
    have hlt := stackMeasure_rest_lt hp stack
    rw [tlvLoop_of_primitive hp hk, tlvLoop_of_primitive hp hk, ih (m := m) _ (by omega) (by omega),
      ih (m := m) ([] ++ [p.record]) (by omega) (by omega)]
    simp
  | constructed f stack p hp hk ih _ =>
    intro n m out hn hm
    obtain ⟨n, m, rfl, rfl⟩ := turn hn hm
    have hlt := stackMeasure_descend_lt hp c.siblings stack
    rw [tlvLoop_of_constructed hp hk, tlvLoop_of_constructed hp hk]
    exact ih out (by omega) (by omega)

/-- What the loop makes of the frames of a stack, from an empty output. -/
def decodeStack (c : Config) (stack : List (List Byte)) : Except TlvError (List TlvRecord) :=
  tlvLoop c (stackMeasure stack) stack []

theorem tlvDecode_eq_decodeStack (c : Config) (buf : List Byte) : tlvDecode c buf = decodeStack c [buf] :=
  tlvDecode_eq_tlvLoop c buf

theorem tlvLoop_eq_decodeStack {n : Nat} (hn : stackMeasure stack ≤ n) (out : List TlvRecord) :
    tlvLoop c n stack out = (out ++ ·) <$> decodeStack c stack := tlvLoop_eq_map c stack out hn le_rfl

theorem decodeStack_eq_tlvLoop {n : Nat} (hn : stackMeasure stack ≤ n) : decodeStack c stack = tlvLoop c n stack [] := by
  rw [tlvLoop_eq_decodeStack hn]; simp

@[simp] theorem decodeStack_nil (c : Config) : decodeStack c [] = .ok [] := tlvLoop_done c _ _

@[simp] theorem decodeStack_exhausted (c : Config) (stack : List (List Byte)) :
    decodeStack c ([] :: stack) = decodeStack c stack := by
  rw [decodeStack_eq_tlvLoop (stack := [] :: stack) (Nat.le_succ _), tlvLoop_exhausted]
  exact (decodeStack_eq_tlvLoop (by rw [stackMeasure_cons]; omega)).symm

theorem decodeStack_of_error (hf : f ≠ []) (hp : readPiece c f = .error e) : decodeStack c (f :: stack) = .error e := by
  rw [decodeStack_eq_tlvLoop (Nat.le_succ _), tlvLoop_of_error hf hp]

theorem decodeStack_of_primitive (hp : readPiece c f = .ok p) (hk : p.cls = .primitive) :
    decodeStack c (f :: stack) = (p.record :: ·) <$> decodeStack c (p.rest :: stack) := by
  rw [decodeStack_eq_tlvLoop (Nat.le_succ _), tlvLoop_of_primitive hp hk,
    tlvLoop_eq_decodeStack (stackMeasure_rest_lt hp stack).le]
  rfl

theorem decodeStack_of_constructed (hp : readPiece c f = .ok p) (hk : p.cls = .constructed) :
    decodeStack c (f :: stack) = decodeStack c (descend c.siblings p stack) := by
  rw [decodeStack_eq_tlvLoop (Nat.le_succ _), tlvLoop_of_constructed hp hk]
  exact (decodeStack_eq_tlvLoop (stackMeasure_descend_lt hp c.siblings stack).le).symm

/-- R177: a result of frames that begin with a primitive record begins with that record. -/
theorem decodeStack_primitive_ok {rs : List TlvRecord} (hp : readPiece c f = .ok p) (hk : p.cls = .primitive)
    (h : decodeStack c (f :: stack) = .ok rs) : ∃ rs', decodeStack c (p.rest :: stack) = .ok rs' ∧ rs = p.record :: rs' := by
  rw [decodeStack_of_primitive hp hk] at h
  cases hd : decodeStack c (p.rest :: stack) with
  | error e => rw [hd] at h; cases h
  | ok rs' => rw [hd] at h; exact ⟨rs', rfl, (Except.ok.inj h).symm⟩

/-- Under a well-formed catalogue well-formed primitive records at the start of a frame are read first (R183). -/
theorem decodeStack_recordsBytes (hc : c.catalogueOk = true) {before : List TlvRecord} (hb : ∀ r ∈ before, recordOk c r)
    (rest : List Byte) (stack : List (List Byte)) :
    decodeStack c ((recordsBytes before ++ rest) :: stack) = (before ++ ·) <$> decodeStack c (rest :: stack) := by
  induction before with
  | nil => simp [recordsBytes]
  | cons r before ih =>
    obtain ⟨⟨hlen, hcls⟩, hb⟩ := List.forall_mem_cons.mp hb
    have hp := readPiece_recordBytes hc hcls hlen (recordsBytes before ++ rest)
    have hbytes : recordsBytes (r :: before) ++ rest = recordBytes r ++ (recordsBytes before ++ rest) := by
      simp [recordsBytes]
    rw [hbytes, decodeStack_of_primitive hp rfl, ih hb]
    simp

/-- A template at the start of a frame is entered (R178, R179). -/
theorem decodeStack_template (hc : c.catalogueOk = true) {t : TlvRecord} (hk : tagClass c t.tag = some .constructed)
    (hl : t.value.length = t.length.toNat) (rest : List Byte) (stack : List (List Byte)) :
    decodeStack c ((recordBytes t ++ rest) :: stack) =
      decodeStack c (descend c.siblings ⟨.constructed, t, rest⟩ stack) :=
  decodeStack_of_constructed (readPiece_recordBytes hc hk hl rest) rfl

/-- R181: the frames below do not mend an error. -/
theorem decodeStack_append_of_error (h : decodeStack c stack = .error e) (below : List (List Byte)) :
    decodeStack c (stack ++ below) = .error e := by
  induction stack using stack_induction c with
  | done => rw [decodeStack_nil] at h; cases h
  | exhausted stack ih => rw [decodeStack_exhausted] at h; exact (decodeStack_exhausted _ _).trans (ih h)
  | error f stack e' hf hp =>
    rw [decodeStack_of_error hf hp] at h
    exact (decodeStack_of_error hf hp).trans h
  | primitive f stack p hp hk ih =>
    have hrest : decodeStack c (p.rest :: stack) = .error e := by
      rw [decodeStack_of_primitive hp hk] at h
      cases hd : decodeStack c (p.rest :: stack) with
      | error e' => rw [hd] at h; exact h
      | ok rs => rw [hd] at h; cases h
    rw [List.cons_append, decodeStack_of_primitive hp hk, ← List.cons_append, ih hrest]; rfl
  | constructed f stack p hp hk ih _ =>
    rw [decodeStack_of_constructed hp hk] at h
    rw [List.cons_append, decodeStack_of_constructed hp hk]
    cases hm : c.siblings with
    | preserve => rw [hm] at h ih; exact ih h
    | discard => rw [hm] at h; exact h

/-- R182 (c): every record of the output took at least two bytes of the frames. -/
theorem decodeStack_length {rs : List TlvRecord} (h : decodeStack c stack = .ok rs) :
    2 * rs.length ≤ (stack.map List.length).sum := by
  induction stack using stack_induction c generalizing rs with
  | done => rw [decodeStack_nil] at h; cases h; simp
  | exhausted stack ih => rw [decodeStack_exhausted] at h; simpa using ih h
  | error f stack e hf hp => rw [decodeStack_of_error hf hp] at h; cases h
  | primitive f stack p hp hk ih =>
    obtain ⟨rs', hd, rfl⟩ := decodeStack_primitive_ok hp hk h
    have hrest := ih hd
    have hlen := readPiece_length hp
    simp only [List.map_cons, List.sum_cons, List.length_cons] at hrest ⊢
    omega
  | constructed f stack p hp hk ih _ =>
    rw [decodeStack_of_constructed hp hk] at h
    have hinner := ih h
    have hlen := readPiece_length hp
    cases hm : c.siblings <;> simp only [hm, descend, List.map_cons, List.sum_cons, List.map_nil, List.sum_nil] at hinner ⊢ <;>
      omega

/-! The stack of frames and what a buffer spells. -/

/-- What a frame spells comes before what the frames below decode to (R178). -/
theorem decodeStack_of_spells {inner : List TlvRecord} (hc : c.catalogueOk = true) (hm : c.siblings = .preserve)
    (h : Spells c f inner) (stack : List (List Byte)) :
    decodeStack c (f :: stack) = (inner ++ ·) <$> decodeStack c stack := by
  induction h generalizing stack with
  | empty => simp
  | primitive r rest rs hr _ ih =>
    obtain ⟨hlen, hcls⟩ := hr
    rw [decodeStack_of_primitive (readPiece_recordBytes hc hcls hlen rest) rfl, ih]
    simp
  | template t rest inner rs hk hl _ _ ihValue ihRest =>
    rw [decodeStack_template hc hk hl, hm, descend, ihValue, ihRest]
    simp

/-- A result is what the top frame spells, then the result of the frames below. -/
theorem spells_of_decodeStack (hm : c.siblings = .preserve) {rs : List TlvRecord} (h : decodeStack c (f :: stack) = .ok rs) :
    ∃ inner outer, Spells c f inner ∧ decodeStack c stack = .ok outer ∧ rs = inner ++ outer := by
  generalize hs : f :: stack = frames at h
  induction frames using stack_induction c generalizing f stack rs with
  | done => cases hs
  | exhausted stack _ =>
    cases hs
    exact ⟨[], rs, .empty, by simpa using h, rfl⟩
  | error f stack e hf hp => rw [decodeStack_of_error hf hp] at h; cases h
  | primitive f stack p hp hk ih =>
    cases hs
    obtain ⟨hf, hcls, hlen⟩ := readPiece_ok hp
    obtain ⟨rs', hd, rfl⟩ := decodeStack_primitive_ok hp hk h
    obtain ⟨inner, outer, hrest, hstack, rfl⟩ := ih rfl hd
    exact ⟨p.record :: inner, outer, hf ▸ .primitive _ _ _ ⟨hlen, hk ▸ hcls⟩ hrest, hstack, rfl⟩
  | constructed f stack p hp hk ih ihRest =>
    cases hs
    obtain ⟨hf, hcls, hlen⟩ := readPiece_ok hp
    rw [decodeStack_of_constructed hp hk] at h
    obtain ⟨inner, _, hvalue, hbelow, rfl⟩ := ih (by rw [hm]; rfl) h
    obtain ⟨siblings, outer, hrest, hstack, rfl⟩ := ihRest rfl hbelow
    exact ⟨inner ++ siblings, outer, hf ▸ .template _ _ _ _ (hk ▸ hcls) hlen hvalue hrest, hstack,
      (List.append_assoc ..).symm⟩

end

/-! The obligations. -/

/-- Settles O25: the records are read in turn, and then nothing is left. -/
theorem tlvRoundTrip : Obligations.TlvRoundTrip := by
  intro c rs hc hrs
  have h := decodeStack_recordsBytes hc hrs [] []
  simpa [tlvDecode_eq_decodeStack] using h

/-- Settles O26: what the single frame spells, with no frame below. -/
theorem tlvDecodesExactlyWhatTheBufferSpells : Obligations.TlvDecodesExactlyWhatTheBufferSpells := by
  intro c buf rs hc hm
  rw [tlvDecode_eq_decodeStack]
  constructor
  · intro h
    obtain ⟨inner, outer, hspells, hnil, rfl⟩ := spells_of_decodeStack hm h
    cases hnil
    simpa using hspells
  · intro h
    rw [decodeStack_of_spells hc hm h]; simp

/-- Settles O27: entering the template leaves its value as the only frame. -/
theorem discardModeDropsSiblings : Obligations.DiscardModeDropsSiblings := by
  intro c before t rest hc hm hb hk hl
  simp only [tlvDecode_eq_decodeStack]
  rw [decodeStack_recordsBytes hc hb, decodeStack_template hc hk hl, hm, descend]
  cases decodeStack c [t.value] <;> rfl

/-- Settles O28: the turns and their measure, and `tlvLoop_eq_decodeStack` for both bounds. -/
theorem tlvLoopIsBoundedByItsMeasure : Obligations.TlvLoopIsBoundedByItsMeasure := by
  refine ⟨fun stack => ?_, fun c f stack p hp => ⟨stackMeasure_rest_lt hp stack, stackMeasure_descend_lt hp _ stack⟩,
    fun c n stack out => ⟨tlvLoop_done c n out, tlvLoop_exhausted c n stack out⟩,
    fun c n f stack out hf => ⟨fun e hp => tlvLoop_of_error hf hp n out, fun p hp hk => tlvLoop_of_primitive hp hk n out,
      fun p hp hk => tlvLoop_of_constructed hp hk n out⟩,
    fun c n stack out hn => ?_, tlvDecode_eq_tlvLoop⟩
  · rw [stackMeasure_cons]; omega
  · rw [tlvLoop_eq_decodeStack hn, tlvLoop_eq_decodeStack le_rfl]

/-- Settles O29: two bytes a record, and the loop outputs well-formed records only. -/
theorem tlvOutputIsWellFormed : Obligations.TlvOutputIsWellFormed := by
  refine ⟨fun c buf rs h => ⟨?_, tlvLoop_recordOk h (by simp)⟩, fun c => rfl⟩
  rw [tlvDecode_eq_decodeStack] at h
  simpa using decodeStack_length h

/-- Settles O30: the records before the error are dropped with it, and so are the frames below the template's value. -/
theorem tlvErrorAbortsTheWholeDecode : Obligations.TlvErrorAbortsTheWholeDecode := by
  intro c before e hc hb
  simp only [tlvDecode_eq_decodeStack, decodeStack_recordsBytes hc hb]
  refine ⟨fun bad h => by rw [h]; rfl, fun t rest hk hl h => ?_⟩
  rw [decodeStack_template hc hk hl]
  cases c.siblings with
  | preserve => rw [descend, ← List.singleton_append, decodeStack_append_of_error h]; rfl
  | discard => rw [descend, h]; rfl

/-- Settles O32: the records and the diagnosis are the outcome of the decode. -/
theorem decodeTlvAlwaysCompletes : Obligations.DecodeTlvAlwaysCompletes := by
  intro s
  exact ⟨_, _, rfl, tlvOutcome_tlvDecode_ok s.cfg (dinOperand s)⟩

/-- Settles O24: the tag is resolved by one of the two tables or by none, and `readBody` checks length and value. -/
theorem tlvHeaderRules : Obligations.TlvHeaderRules := by
  intro c
  refine ⟨rfl, fun x => rfl, fun x y tl h1 h2 => ?_, fun x len k body h1 => ?_, fun x y k h1 h2 => ?_,
    fun x y len k body h1 h2 => ?_⟩
  · rw [readPiece, resolveTag_of_not_one h1, h2]; rfl
  · rw [readPiece, resolveTag_of_one h1]; rfl
  · rw [readPiece, resolveTag_of_not_one h1, h2]; rfl
  · rw [readPiece, resolveTag_of_not_one h1, h2]; rfl

/-- Settles O31: `tlvOutcome` on each result of the decoder, and row 12 of the request decoder. -/
theorem decodeTlvRequestRecordsTheOutcome : Obligations.DecodeTlvRequestRecordsTheOutcome := by
  have hexec (s : State) : exec .decodeTlv s = execDecodeTlv s := rfl
  refine ⟨fun s rs h => ?_, fun s h => ?_, fun s h => ?_, decodesN_of_row (i := .decodeTlv) rfl, rfl, rfl, rfl⟩
  all_goals rw [hexec, execDecodeTlv, dinOperand, h]; rfl

end Sys2Proof.Machine

/-! ## Response envelope -/

namespace Sys2Proof.Machine

/-- R200: the decode gives the envelope its last two fields and no other. -/
theorem envelope_of_tlvDecode {c : Config} {p : List Byte} {d : Except TlvError (List TlvRecord)} (h : tlvDecode c p = d)
    (st : Status) (sw : Byte × Byte) : envelope c st sw p = ⟨st, sw, p, (tlvOutcome d).1, (tlvOutcome d).2⟩ := by
  rw [envelope, h]

/-- Settles O33: `envelope_of_tlvDecode` at each outcome of the decoder; O29 decodes the empty payload. -/
theorem envelopeKeepsThePayload : Obligations.EnvelopeKeepsThePayload := by
  intro c st sw p
  have hnil : tlvDecode c [] = .ok [] := tlvOutputIsWellFormed.2 c
  exact ⟨fun _ h => envelope_of_tlvDecode h st sw, fun h => envelope_of_tlvDecode h st sw,
    fun h => envelope_of_tlvDecode h st sw, envelope_of_tlvDecode hnil st sw⟩

end Sys2Proof.Machine

/-! ## Session and command protocol -/

namespace Sys2Proof.Machine

/-! Which answers are accepted (R212, R213). -/

theorem acceptAnswer_of_le {c : Config} {p : List Byte} (sw1 sw2 : Byte) (h : p.length + 2 ≤ c.rxMax) :
    acceptAnswer c (.ok (p ++ [sw1, sw2])) = .ok (sw1, sw2, p) := by
  have hlen : ¬ c.rxMax < (p ++ [sw1, sw2]).length := by simpa using h
  simp only [acceptAnswer, splitReply_append, if_neg hlen]

theorem acceptAnswer_of_short {c : Config} {r : List Byte} (h : r.length < 2) :
    acceptAnswer c (.ok r) = .error .shortReply := by simp only [acceptAnswer, splitReply_short r h]

theorem acceptAnswer_of_long {c : Config} {r : List Byte} (h2 : 2 ≤ r.length) (h : c.rxMax < r.length) :
    acceptAnswer c (.ok r) = .error .replyTooLong := by
  obtain ⟨p, sw1, sw2, rfl⟩ := exists_last_two r h2
  simp only [acceptAnswer, splitReply_append, if_pos h]

/-- Settles O35: a reply splits exactly if it has two bytes, and only a split one is held to the limit. -/
theorem replyAcceptance : Obligations.ReplyAcceptance := fun _ =>
  ⟨fun _ sw1 sw2 h => acceptAnswer_of_le sw1 sw2 h, fun _ h => acceptAnswer_of_short h,
    fun _ h2 h => acceptAnswer_of_long h2 h, rfl⟩

/-! The step of a pending exchange. -/

/-- R23: while a transmission is pending no request is accepted. -/
theorem accepts_of_pending {s : State} (hf : s.fsm ≠ .done) : accepts s = false :=
  Bool.eq_false_iff.mpr fun ha => hf ((accepts_iff s).mp ha).2

/-- Settles O7: no request is accepted, and of the other agents' actions none is taken. -/
theorem pendingExchangeWaits : Obligations.PendingExchangeWaits := by
  intro s hf hwait
  have htake : takeStimulus (reqReady s) s.agenda = none := by
    simpa [takeStimulus, reqReady, hf] using takeWhileBusy_none hwait false
  simp [step, accepts_of_pending hf, outsideStep, htake]

/-- The next delivery is the step of a pending exchange (R215). -/
theorem step_of_delivery {s : State} {a : Answer} {rest : List Stimulus} (hf : s.fsm ≠ .done)
    (hag : s.agenda = .deliver a :: rest) : step s = deliver a { s with agenda := rest } :=
  step_head s _ rest (accepts_of_pending hf) (.inr rfl) hag

theorem deliver_of_rejected {s : State} {a : Answer} {e : ErrCode} (hf : s.fsm ≠ .done)
    (h : acceptAnswer s.cfg a = .error e) : deliver a s = .next (failExchange e s) := by
  simp [deliver, reqReady, hf, h]

theorem deliver_of_accepted {s : State} {a : Answer} {sw1 sw2 : Byte} {p : List Byte} (hf : s.fsm ≠ .done)
    (h : acceptAnswer s.cfg a = .ok (sw1, sw2, p)) : deliver a s = acceptedReply sw1 sw2 p s := by
  simp [deliver, reqReady, hf, h]

theorem step_of_rejected_delivery {s : State} {a : Answer} {rest : List Stimulus} {e : ErrCode} (hf : s.fsm ≠ .done)
    (hag : s.agenda = .deliver a :: rest) (h : acceptAnswer s.cfg a = .error e) :
    step s = .next { s with agenda := rest, err := e, fsm := .done } :=
  (step_of_delivery hf hag).trans (deliver_of_rejected hf h)

theorem step_of_accepted_delivery {s : State} {sw1 sw2 : Byte} {p : List Byte} {rest : List Stimulus} (hf : s.fsm ≠ .done)
    (hag : s.agenda = .deliver (.ok (p ++ [sw1, sw2])) :: rest) (hlen : p.length + 2 ≤ s.cfg.rxMax) :
    step s = acceptedReply sw1 sw2 p { s with agenda := rest } :=
  (step_of_delivery hf hag).trans (deliver_of_accepted hf (acceptAnswer_of_le sw1 sw2 hlen))

/-- Settles O38: each of the three answers is rejected with its own error. -/
theorem rejectedAnswerEndsTheExchange : Obligations.RejectedAnswerEndsTheExchange := by
  intro s a rest hf hag
  refine ⟨?_, ?_, ?_⟩
  · rintro rfl; exact step_of_rejected_delivery hf hag rfl
  · rintro r rfl hshort; exact step_of_rejected_delivery hf hag (acceptAnswer_of_short hshort)
  · rintro r rfl h2 hlong; exact step_of_rejected_delivery hf hag (acceptAnswer_of_long h2 hlong)

/-! The protocol step of an accepted reply, state by state (R216 to R219). -/

theorem acceptedReply_of_sent {s : State} (hf : s.fsm = .sent) (sw1 sw2 : Byte) (p : List Byte) :
    acceptedReply sw1 sw2 p s = replyInSent sw1 sw2 p s := by simp only [acceptedReply, hf]

theorem acceptedReply_of_continuation {s : State} (hf : s.fsm = .awaitingMore ∨ s.fsm = .awaitingRetry) (sw1 sw2 : Byte)
    (p : List Byte) : acceptedReply sw1 sw2 p s = replyInContinuation sw1 sw2 p s := by
  obtain hf | hf := hf <;> simp only [acceptedReply, hf]

theorem pending_of_continuation {f : FsmState} (hf : f = .awaitingMore ∨ f = .awaitingRetry) : f ≠ .done := by
  obtain rfl | rfl := hf <;> nofun

/-- Settles O37: the continuation states do not look at the status word. -/
theorem continuationReplyIsSurfaced : Obligations.ContinuationReplyIsSurfaced := by
  intro s sw1 sw2 p rest hf hag hlen
  calc step s = acceptedReply sw1 sw2 p { s with agenda := rest } :=
        step_of_accepted_delivery (pending_of_continuation hf) hag hlen
    _ = replyInContinuation sw1 sw2 p { s with agenda := rest } := acceptedReply_of_continuation (by exact hf) sw1 sw2 p

theorem replyInSent_more (sw2 : Byte) (p : List Byte) (s : State) :
    replyInSent 0x61 sw2 p s = .next (transmit (serialize (cmdGetResponse s.cfg sw2)) .awaitingMore s) := rfl

theorem replyInSent_retry {s : State} (hv : s.cmdValid = true) (sw2 : Byte) (p : List Byte) :
    replyInSent 0x6C sw2 p s = .next (transmit (serialize (withLength s.cmd sw2)) .awaitingRetry s) := by
  have hsw : replyInSent 0x6C sw2 p s = retryWithLength sw2 s := rfl
  simp only [hsw, retryWithLength, readCmd, hv, if_true]

theorem replyInSent_surfaces {sw1 : Byte} (h61 : sw1 ≠ 0x61) (h6C : sw1 ≠ 0x6C) (sw2 : Byte) (p : List Byte) (s : State) :
    replyInSent sw1 sw2 p s = replyInContinuation sw1 sw2 p s := by
  have hcont : isContinuation (decodeStatus sw1 sw2) = false :=
    Bool.eq_false_iff.mpr fun h => ((isContinuation_decodeStatus_iff sw1 sw2).mp h).elim h61 h6C
  rw [replyInSent, replyInContinuation]
  cases hst : decodeStatus sw1 sw2 with
  | responseAvailable n => rw [hst] at hcont; cases hcont
  | wrongLengthLe n => rw [hst] at hcont; cases hcont
  | _ => rfl

/-- Settles O36: 61 and 6C transmit their five bytes, and every other status word is surfaced. -/
theorem sentStepFollowsTheStatusWord : Obligations.SentStepFollowsTheStatusWord := by
  intro s sw1 sw2 p rest hf hag hlen
  have hstep : step s = replyInSent sw1 sw2 p { s with agenda := rest } :=
    (step_of_accepted_delivery (by simp [hf]) hag hlen).trans (acceptedReply_of_sent (by exact hf) sw1 sw2 p)
  rw [hstep]
  refine ⟨?_, ?_, fun h61 h6C => ?_⟩
  · rintro rfl
    rw [replyInSent_more, serialize_cmdGetResponse]; rfl
  · rintro rfl hv
    rw [replyInSent_retry (by exact hv), serialize_withLength]; rfl
  · rw [replyInSent_surfaces h61 h6C]; rfl

/-! How often one EXCHANGE transmits (R219). -/

/-- The transmissions made so far and those the pending exchange may still make. -/
def transmissionBound (s : State) : Nat := s.transmitted.length + continuationsLeft s.fsm

theorem exec_exchange_transmissionBound {s t : State} (h : exec .exchange s = .next t) (hf : s.fsm = .done) :
    transmissionBound t ≤ s.transmitted.length + 2 := by
  obtain hv | hv := Bool.eq_false_or_eq_true s.cmdValid
  · rw [exec_exchange_of_valid hv] at h; cases h
    exact le_refl (s.transmitted.length + 1 + 1)
  · rw [exec_exchange_of_not_valid hv] at h; cases h
    simp [transmissionBound, continuationsLeft, hf]

/-- A delivery uses up the one continuation that is left, or ends the exchange. -/
theorem deliver_transmissionBound {a : Answer} {s t : State} (h : deliver a s = .next t) :
    transmissionBound t ≤ transmissionBound s := by
  obtain ⟨-, rfl⟩ | ⟨-, e, rfl⟩ | ⟨hf, n, rfl⟩ | ⟨hf, n, rfl⟩ | ⟨-, sw1, sw2, p, -, rfl⟩ := deliver_next_cases h
  · exact le_rfl
  · simp [transmissionBound, continuationsLeft]
  · simp [transmissionBound, continuationsLeft, hf]
  · simp [transmissionBound, continuationsLeft, hf]
  · simp [transmissionBound, continuationsLeft]

theorem respond_transmissionBound {a : Stimulus} {s t : State} (h : respond a s = .next t) :
    transmissionBound t ≤ transmissionBound s := by
  obtain ⟨len, bytes, -, rfl⟩ | ⟨w, -, rfl⟩ | rfl | ⟨x, hx⟩ | ⟨-, rfl⟩ := respond_next_cases h
  · exact le_rfl
  · exact le_rfl
  · exact le_rfl
  · exact deliver_transmissionBound hx
  · simp [transmissionBound, continuationsLeft]

/-- While a transmission is pending a step is another agent's action or none, for no request is accepted. -/
theorem step_transmissionBound {s t : State} (h : step s = .next t) (hf : s.fsm ≠ .done) :
    transmissionBound t ≤ transmissionBound s := by
  have ha := accepts_of_pending hf
  obtain ⟨ha', -⟩ | ⟨ha', -⟩ | ⟨-, rfl⟩ | ⟨-, a, rest, -, -, hr⟩ := step_next_cases h
  · exact absurd (ha.symm.trans ha') nofun
  · exact absurd (ha.symm.trans ha') nofun
  · exact le_rfl
  · exact (respond_transmissionBound hr :)

/-- R219: in a continuation state a delivery ends the exchange and sends nothing. -/
theorem deliver_of_continuation {a : Answer} {s t : State} (h : deliver a s = .next t)
    (hf : s.fsm = .awaitingMore ∨ s.fsm = .awaitingRetry) : t.fsm = .done ∧ t.transmitted = s.transmitted := by
  have hsent : s.fsm ≠ .sent := by obtain hf | hf := hf <;> simp [hf]
  obtain ⟨hd, -⟩ | ⟨-, e, rfl⟩ | ⟨hs, -⟩ | ⟨hs, -⟩ | ⟨-, sw1, sw2, p, -, rfl⟩ := deliver_next_cases h
  · exact absurd hd (pending_of_continuation hf)
  · exact ⟨rfl, rfl⟩
  · exact absurd hs hsent
  · exact absurd hs hsent
  · exact ⟨rfl, rfl⟩

/-- Settles O39: `transmissionBound` grows by at most two at an EXCHANGE and never while it is pending. -/
theorem atMostOneContinuation : Obligations.AtMostOneContinuation :=
  ⟨fun _ _ h hf => exec_exchange_transmissionBound h hf, fun _ _ h hf => step_transmissionBound h hf,
    fun _ _ _ h hf => deliver_of_continuation h hf⟩

/-- Settles O34: the two answers of EXCHANGE are known, and its row is of format N. -/
theorem exchangeTransmitsTheCommand : Obligations.ExchangeTransmitsTheCommand :=
  ⟨fun _ hv => exec_exchange_of_valid hv, fun _ hv => exec_exchange_of_not_valid hv, decodesN_of_row (i := .exchange) rfl⟩

end Sys2Proof.Machine

/-! ## An accepted request and the earlier `ERR` -/

namespace Sys2Proof.Machine

/-- R240: a request does not read `ERR`, and in every case it writes `ERR`. -/
theorem exec_with_err (i : Instr) (s : State) (e : ErrCode) : exec i { s with err := e } = exec i s := by
  cases hi : builtShape i with
  | some sh =>
    obtain ⟨f, hexec⟩ := exec_builder_reads hi
    rw [hexec, hexec]; rfl
  | none =>
    cases i with
    | withLength n =>
      obtain hv | hv := Bool.eq_false_or_eq_true s.cmdValid
      · rw [exec_withLength_of_valid hv]; exact exec_withLength_of_valid hv
      · rw [exec_withLength_of_not_valid hv]; exact exec_withLength_of_not_valid hv
    | exchange =>
      obtain hv | hv := Bool.eq_false_or_eq_true s.cmdValid
      · rw [exec_exchange_of_valid hv]; exact exec_exchange_of_valid hv
      · rw [exec_exchange_of_not_valid hv]; exact exec_exchange_of_not_valid hv
    | decodeStatus sw1 sw2 => rfl
    | decodeTlv => rfl
    | _ => cases hi

/-- R23: the step of a state that accepts a request. -/
theorem step_of_accepts {s : State} (ha : accepts s = true) : step s = acceptRequest s := if_pos ha

/-- R240, R242: a legal word runs its request, an illegal one records ILLEGAL_REQUEST; both overwrite `ERR`. -/
theorem acceptRequest_with_err (s : State) (e : ErrCode) : acceptRequest { s with err := e } = acceptRequest s := by
  cases hd : decode s.req with
  | ok i =>
    simp only [acceptRequest, hd]
    exact exec_with_err i (lowerStrobe s) e
  | error b =>
    simp only [acceptRequest, hd]
    rfl

/-- Settles O53: whether a request is accepted does not depend on `ERR`, and accepting one overwrites it. -/
theorem acceptedRequestOverwritesErr : Obligations.AcceptedRequestOverwritesErr := by
  intro s e ha
  have ha' : accepts { s with err := e } = true := ha
  calc step { s with err := e } = acceptRequest { s with err := e } := step_of_accepts ha'
    _ = acceptRequest s := acceptRequest_with_err s e
    _ = step s := (step_of_accepts ha).symm

end Sys2Proof.Machine

/-! ## Reset and hazards -/

namespace Sys2Proof.Machine

/-! The configuration (R38, R272). -/

theorem exec_cfg {i : Instr} {s t : State} (h : exec i s = .next t) : t.cfg = s.cfg := by
  obtain ⟨c, -, rfl⟩ | ⟨-, rfl⟩ | ⟨-, -, rfl⟩ | ⟨sw1, sw2, rfl⟩ | rfl := exec_next_cases h
  all_goals rfl

theorem deliver_cfg {a : Answer} {s t : State} (h : deliver a s = .next t) : t.cfg = s.cfg := by
  obtain ⟨-, -, -, -, -, -, -, -, -, -, -, hcfg, -⟩ := protocolStepsKeepOtherRegisters s t a h
  exact hcfg

theorem respond_cfg {a : Stimulus} {s t : State} (h : respond a s = .next t) : t.cfg = s.cfg := by
  obtain ⟨len, bytes, -, rfl⟩ | ⟨w, -, rfl⟩ | rfl | ⟨x, hx⟩ | ⟨-, rfl⟩ := respond_next_cases h
  · rfl
  · rfl
  · rfl
  · exact deliver_cfg hx
  · exact applyReset_cfg s

/-- Settles O48: neither a request nor another agent's action, a reset among them, writes the configuration. -/
theorem configurationIsNeverWritten : Obligations.ConfigurationIsNeverWritten := by
  intro s t h
  obtain ⟨-, i, -, hi⟩ | ⟨-, rfl⟩ | ⟨-, rfl⟩ | ⟨-, a, rest, -, -, hr⟩ := step_next_cases h
  · exact (exec_cfg hi :)
  · rfl
  · rfl
  · exact (respond_cfg hr :)

/-! Late answers and the reset event, with no request on the port. -/

/-- R23: nothing is accepted from a port whose strobe is low. -/
theorem accepts_of_quiet {s : State} (hq : s.reqValid = false) : accepts s = false := by
  simp [accepts, hq]

/-- R271, R252: a late answer is taken and dropped, whatever the protocol state. -/
theorem step_of_lateAnswer {s : State} {a : Answer} {rest : List Stimulus} (hq : s.reqValid = false)
    (hag : s.agenda = .lateAnswer a :: rest) : step s = .next { s with agenda := rest } :=
  step_head s _ rest (accepts_of_quiet hq) (.inr rfl) hag

theorem deliver_of_done {s : State} (hf : s.fsm = .done) (a : Answer) : deliver a s = .next s := by
  simp [deliver, reqReady, hf]

/-- R252: in `Done` a delivery is dropped. -/
theorem step_of_delivery_in_done {s : State} {a : Answer} {rest : List Stimulus} (hq : s.reqValid = false)
    (hf : s.fsm = .done) (hag : s.agenda = .deliver a :: rest) : step s = .next { s with agenda := rest } :=
  calc step s = deliver a { s with agenda := rest } := step_head s _ rest (accepts_of_quiet hq) (.inl hf) hag
    _ = .next { s with agenda := rest } := deliver_of_done (by exact hf) a

/-- Settles O40: the two kinds of unwanted answer, each dropped by its own step. -/
theorem unwantedAnswersHaveNoEffect : Obligations.UnwantedAnswersHaveNoEffect :=
  fun _ _ _ hq => ⟨step_of_lateAnswer hq, step_of_delivery_in_done hq⟩

/-- R271: a reset is taken at once, in any protocol state. -/
theorem step_of_reset {s : State} {rest : List Stimulus} (hq : s.reqValid = false) (hag : s.agenda = .reset :: rest) :
    step s = .next (applyReset { s with agenda := rest }) :=
  step_head s _ rest (accepts_of_quiet hq) (.inr rfl) hag

/-- Settles O41: the step is `applyReset`, whose every field the rules of `State` give. -/
theorem resetEventRestoresEveryRegister : Obligations.ResetEventRestoresEveryRegister := by
  intro s rest hq hag
  refine ⟨applyReset { s with agenda := rest }, step_of_reset hq hag, ?_⟩
  simp

end Sys2Proof.Machine

/-! ## The sample words and the reset state -/

namespace Sys2Proof.Machine

/-- Settles O4: each legal word is the encoding of its request (O1); the illegal ones are evaluated. -/
theorem sampleWordsDecode : Obligations.SampleWordsDecode := by
  have legal (i : Instr) : decode (encode i) = .ok i := decodeOfEncodeIsTheRequest i
  exact ⟨legal .select, legal (.getResponse 0x1A), legal (.getData 0x9F36), legal (.putData true 0x5F2D),
    legal (.readRecord 0x01 0x0C), legal (.generateAc .arqc), legal (.withLength 0x2F), legal .exchange,
    legal (.decodeStatus 0x6A 0x82), legal .decodeTlv, rfl, rfl, rfl⟩

/-- R39, R270: a reset of the state after reset changes nothing. -/
theorem applyReset_reset : applyReset State.reset = State.reset := rfl

/-- Settles O45: resetting any state gives the invariant, and the reset state is its own reset. -/
theorem resetSatisfiesTheInvariant : Obligations.ResetSatisfiesTheInvariant := by
  have h : Inv (applyReset State.reset) := .applyReset State.reset
  rwa [applyReset_reset] at h

end Sys2Proof.Machine
